-- ==== Sys2Proof/Word.lean ====
section
/-! DEFINITION. The two data types of CORE: the byte and the 16-byte Block (spec/00_scope.md section 5.1,
spec/30_encoding.md R60). -/

namespace Sys2Proof

/-- A byte, 0..255; bit 7 is the most significant (spec/00_scope.md section 5.1). -/
abbrev Byte := BitVec 8

/-- A Block: sixteen bytes `X[0]` .. `X[15]`; byte `4c + r` is the byte at column `c`, row `r` (R60). -/
abbrev Block := Vector Byte 16

/-- `ZERO`, the Block of sixteen `0x00` bytes (spec/00_scope.md section 5.1). -/
def Block.zero : Block := Vector.replicate 16 0

end Sys2Proof
end

