-- ==== Sys2Proof/Syntax.lean ====
section
/-! DEFINITION. The thirteen ops of the control sequencer, one constructor per row of spec/opcode_table.json, and
the listing syntax of the spec: mnemonics, listing lines and the two pseudo-instructions (spec/30_encoding.md R67,
R72, R73). -/

namespace Sys2Proof

/-- The thirteen ops (R67). The index `k` of a format-K op selects `RTK[k]`; it is a number 0..15 (R66). -/
inductive Instr where
  /-- `WAIT`: idle; on `start`, sample the input ports (R136). -/
  | wait
  /-- `RTK k`: assemble round tweakey `k` (R110). -/
  | rtk (k : Fin 16)
  /-- `TKH`: the H permutation of both tweakey halves (R111). -/
  | tkh
  /-- `TKG`: the G LFSR on every byte of `TK1` (R112). -/
  | tkg
  /-- `XORK k`: key addition on `S` without a round (R90). -/
  | xork (k : Fin 16)
  /-- `AESR k`: one keyed round on `S` (R91). -/
  | aesr (k : Fin 16)
  /-- `AESRZ`: one zero-key round on `S` (R92). -/
  | aesrz
  /-- `FORK`: save the fork state and seed the eight lanes (R137). -/
  | fork
  /-- `BXORK k`: per-lane key addition without a round (R138). -/
  | bxork (k : Fin 16)
  /-- `BAESR k`: one keyed round on all eight lanes (R139). -/
  | baesr (k : Fin 16)
  /-- `BAESRZ`: one zero-key round on all eight lanes (R140). -/
  | baesrz
  /-- `MASK k`: final key addition, feed-forward and output write (R141). -/
  | mask (k : Fin 16)
  /-- `FIN`: end of the evaluation (R142). -/
  | fin
deriving DecidableEq, Repr

/-- The index `k` of a format-K op; a format-Z op has none (R65). -/
def Instr.index : Instr → Option (Fin 16)
  | .wait => none
  | .rtk k => some k
  | .tkh => none
  | .tkg => none
  | .xork k => some k
  | .aesr k => some k
  | .aesrz => none
  | .fork => none
  | .bxork k => some k
  | .baesr k => some k
  | .baesrz => none
  | .mask k => some k
  | .fin => none

/-- The mnemonics a listing may use: the thirteen ops (R67, R72) and the two pseudo-instructions, which have no
encoding (R73). -/
inductive Mnemonic where
  | wait | rtk | tkh | tkg | xork | aesr | aesrz | fork | bxork | baesr | baesrz | mask | fin
  /-- `SCHED`: the 48 words at addresses 1..48. -/
  | sched
  /-- `EVAL`: the whole control ROM. -/
  | eval
deriving DecidableEq, Repr

/-- The mnemonic as a listing spells it, in capitals (R67, R72, R73). -/
def Mnemonic.text : Mnemonic → String
  | .wait => "WAIT"
  | .rtk => "RTK"
  | .tkh => "TKH"
  | .tkg => "TKG"
  | .xork => "XORK"
  | .aesr => "AESR"
  | .aesrz => "AESRZ"
  | .fork => "FORK"
  | .bxork => "BXORK"
  | .baesr => "BAESR"
  | .baesrz => "BAESRZ"
  | .mask => "MASK"
  | .fin => "FIN"
  | .sched => "SCHED"
  | .eval => "EVAL"

/-- One line of a listing: a mnemonic and, for format K, an operand written in decimal, with an optional address
before it and an optional comment after it (R72). The operand is a number as written, so a line can be ill
formed; `WellFormed.lean` says when it is not. -/
structure Line where
  address  : Option Nat
  mnemonic : Mnemonic
  operand  : Option Nat
  comment  : Option String
deriving DecidableEq, Repr

/-- The text of a line: `address: MNEMONIC k ; comment` (R72). -/
def Line.text (l : Line) : String :=
  (match l.address with | none => "" | some a => toString a ++ ": ") ++ l.mnemonic.text ++
  (match l.operand with | none => "" | some k => " " ++ toString k) ++
  (match l.comment with | none => "" | some c => " ; " ++ c)

/-- The mnemonic of an op (R67). -/
def Instr.mnemonic : Instr → Mnemonic
  | .wait => .wait
  | .rtk _ => .rtk
  | .tkh => .tkh
  | .tkg => .tkg
  | .xork _ => .xork
  | .aesr _ => .aesr
  | .aesrz => .aesrz
  | .fork => .fork
  | .bxork _ => .bxork
  | .baesr _ => .baesr
  | .baesrz => .baesrz
  | .mask _ => .mask
  | .fin => .fin

/-- The listing line of an op, without address and comment: `RTK 0`, `AESR 6`, `FIN` (R72). -/
def Instr.line (i : Instr) : Line :=
  { address := none, mnemonic := i.mnemonic, operand := i.index.map Fin.val, comment := none }

/-- `SCHED` (R73): `RTK r`, `TKH`, `TKG` for `r` = 0..15. -/
def schedOps : List Instr := (List.finRange 16).flatMap fun r => [.rtk r, .tkh, .tkg]

/-- `EVAL` (R73): the ops of the whole control ROM in order (R69). -/
def evalOps : List Instr :=
  [.wait] ++ schedOps ++
  [.xork 0, .aesr 1, .aesr 2, .aesr 3, .aesr 4, .aesr 5, .aesr 6, .aesrz, .fork,
   .bxork 7, .baesr 8, .baesr 9, .baesr 10, .baesr 11, .baesr 12, .baesr 13, .baesr 14, .baesrz,
   .mask 15, .fin]

end Sys2Proof
end

