-- ==== Sys2Proof/WellFormed.lean ====
section
/-! DEFINITION. What a well-formed listing line, instruction and control word are (spec/30_encoding.md R65, R66, R68,
R72, R73). -/

namespace Sys2Proof

/-- A mnemonic stands for a format-K op, one with an index (R65, R67). -/
def Mnemonic.formatK : Mnemonic → Bool
  | .rtk | .xork | .aesr | .bxork | .baesr | .mask => true
  | .wait | .tkh | .tkg | .aesrz | .fork | .baesrz | .fin | .sched | .eval => false

/-- A listing line is well formed: a format-K op carries an index 0..15, every other op and both
pseudo-instructions carry no operand (R65, R66, R72, R73), and an address, where one is written, is a ROM address
0..68 (R69, R72). -/
def Line.wf (l : Line) : Bool :=
  (match l.mnemonic.formatK, l.operand with
   | true, some k => k < 16
   | true, none => false
   | false, none => true
   | false, some _ => false) &&
  (match l.address with | none => true | some a => a < 69)

/-- An instruction is well formed when its listing line is. The index of an `Instr` is 0..15 by its type, so
every instruction is (`Instr.wf_all` in Laws/Syntax.lean). -/
def Instr.wf (i : Instr) : Bool := i.line.wf

/-- The ops a well-formed line stands for (R72, R73); an ill-formed line stands for none. -/
def Line.ops (l : Line) : Option (List Instr) :=
  if l.wf then
    match l.mnemonic, l.operand with
    | .wait, _ => some [.wait]
    | .rtk, some k => some [.rtk (Fin.ofNat 16 k)]
    | .tkh, _ => some [.tkh]
    | .tkg, _ => some [.tkg]
    | .xork, some k => some [.xork (Fin.ofNat 16 k)]
    | .aesr, some k => some [.aesr (Fin.ofNat 16 k)]
    | .aesrz, _ => some [.aesrz]
    | .fork, _ => some [.fork]
    | .bxork, some k => some [.bxork (Fin.ofNat 16 k)]
    | .baesr, some k => some [.baesr (Fin.ofNat 16 k)]
    | .baesrz, _ => some [.baesrz]
    | .mask, some k => some [.mask (Fin.ofNat 16 k)]
    | .fin, _ => some [.fin]
    | .sched, _ => some schedOps
    | .eval, _ => some evalOps
    | .rtk, none | .xork, none | .aesr, none | .bxork, none | .baesr, none | .mask, none => none
  else none

/-- A control word is a defined one, from the table of R68: `op` 0xd, 0xe, 0xf is reserved; a format-Z op with a
low nibble other than 0 is reserved. -/
def wordDefined (cw : Byte) : Bool :=
  let op := cw.toNat / 16
  let low := cw.toNat % 16
  if op ∈ [1, 4, 5, 8, 9, 11] then true          -- format K: every index
  else if op ∈ [0, 2, 3, 6, 7, 10, 12] then low == 0   -- format Z
  else false

end Sys2Proof
end

