-- ==== Sys2Proof/Decode.lean ====
section
/-! DEFINITION. The decoder, total on any bytes and rejecting reserved words by name, and the encoder, both from the
tables of spec/30_encoding.md R65 to R68. -/

namespace Sys2Proof

/-- Why the decoder rejects: R68 gives these words no meaning. -/
inductive DecodeReject where
  /-- There is no byte to decode. -/
  | noBytes
  /-- A format-Z op whose low nibble is not `0000` (R66, R68). -/
  | reservedLowNibble (cw : Byte)
  /-- `op` = 0xd, 0xe or 0xf (R68). -/
  | reservedOp (cw : Byte)
deriving DecidableEq, Repr

/-- `op = cw[7:4]` (R66). -/
def opField (cw : Byte) : Nat := cw.toNat / 16

/-- `k = cw[3:0]`, an unsigned index 0..15 (R66, R70). -/
def kField (cw : Byte) : Fin 16 := ⟨cw.toNat % 16, Nat.mod_lt _ (by decide)⟩

/-- A format-Z word is the op when its low nibble is `0000`; else it is reserved (R65, R66, R68). -/
def decodeZ (i : Instr) (cw : Byte) : Except DecodeReject Instr :=
  if kField cw = 0 then .ok i else .error (.reservedLowNibble cw)

/-- One control word (R67, R68). -/
def decodeWord (cw : Byte) : Except DecodeReject Instr :=
  match opField cw with
  | 0 => decodeZ .wait cw
  | 1 => .ok (.rtk (kField cw))
  | 2 => decodeZ .tkh cw
  | 3 => decodeZ .tkg cw
  | 4 => .ok (.xork (kField cw))
  | 5 => .ok (.aesr (kField cw))
  | 6 => decodeZ .aesrz cw
  | 7 => decodeZ .fork cw
  | 8 => .ok (.bxork (kField cw))
  | 9 => .ok (.baesr (kField cw))
  | 10 => decodeZ .baesrz cw
  | 11 => .ok (.mask (kField cw))
  | 12 => decodeZ .fin cw
  | _ => .error (.reservedOp cw)

/-- Decode from a list of bytes: every op is one byte long (R64), and the rest of the list is given back. -/
def decode : List Byte → Except DecodeReject (Instr × List Byte)
  | [] => .error .noBytes
  | cw :: rest =>
    match decodeWord cw with
    | .ok i => .ok (i, rest)
    | .error e => .error e

/-- The `match` column of R67. -/
def Instr.matchBits : Instr → Byte
  | .wait => 0x00
  | .rtk _ => 0x10
  | .tkh => 0x20
  | .tkg => 0x30
  | .xork _ => 0x40
  | .aesr _ => 0x50
  | .aesrz => 0x60
  | .fork => 0x70
  | .bxork _ => 0x80
  | .baesr _ => 0x90
  | .baesrz => 0xa0
  | .mask _ => 0xb0
  | .fin => 0xc0

/-- The `mask` column of R67: `0xf0` for a format-K op, `0xff` for a format-Z op. -/
def Instr.maskBits : Instr → Byte
  | .wait => 0xff
  | .rtk _ => 0xf0
  | .tkh => 0xff
  | .tkg => 0xff
  | .xork _ => 0xf0
  | .aesr _ => 0xf0
  | .aesrz => 0xff
  | .fork => 0xff
  | .bxork _ => 0xf0
  | .baesr _ => 0xf0
  | .baesrz => 0xff
  | .mask _ => 0xf0
  | .fin => 0xff

/-- The control word of an op: its `match` bits, with `k` in bits 3..0 for format K (R65 to R67). -/
def encodeWord (i : Instr) : Byte :=
  match i.index with
  | none => i.matchBits
  | some k => i.matchBits ||| BitVec.ofNat 8 k.val

/-- The bytes of an instruction: one control word (R64). -/
def encode (i : Instr) : List Byte := [encodeWord i]

/-- `n` bytes of the number `w`, the least significant first. -/
def bytesOfNat : Nat → Nat → List Byte
  | 0, _ => []
  | n + 1, w => BitVec.ofNat 8 w :: bytesOfNat n (w / 256)

/-- The bytes of a table row's word: its `nbits` bits, every bit above them 0, at least one byte long (R64). -/
def tableBytes (nbits w : Nat) : List Byte := bytesOfNat (max 1 ((nbits + 7) / 8)) (w % 2 ^ nbits)

/-- What the decoder reads from an instruction numbered as spec/opcode_table.json numbers its bits. -/
def decodeTableWord (nbits w : Nat) : Option Instr :=
  match decode (tableBytes nbits w) with
  | .ok (i, _) => some i
  | .error _ => none

end Sys2Proof
end

