-- ==== Sys2Proof/Config.lean ====
section
/-! DEFINITION. What is fixed for one CORE: the number of control words, and the one parameter the spec leaves
open, the duration of a step (spec/00_scope.md R6, R7). -/

namespace Sys2Proof.Config

/-- `NSTEPS`: the control ROM has 69 words, at step addresses 0..68 (R7, R69). -/
def nsteps : Nat := 69

/-- `CYCLES_PER_STEP`, "a positive integer the model takes as an argument and no rule depends on" (R7, R193).
It has no body: nothing can be proved about its value but that it is positive, and no definition of the model
reads it (log entry 8). -/
opaque cyclesPerStep : ℕ+

end Sys2Proof.Config
end

