-- ==== Sys2Proof/Machine/State.lean ====
section
/-! DEFINITION. The state of one CORE instance, the reasons a step can stop, and the state after reset
(spec/10_state.md R10 to R28). -/

namespace Sys2Proof.Machine

/-- Faults. CORE "is total and infallible": the set of exception causes is empty (R160), so this type has no
constructor and no step can answer a fault. -/
inductive Fault where
deriving DecidableEq, Repr

/-- Refusals: what a step, or an arm of exec, gives no meaning to. Each is safe: the model stops where the spec
gives no meaning, and the hardware never gets there (R68, R161, spec/93_implementation_defined.md U1, U2). -/
inductive Refusal where
  /-- Raised by an arm of exec for an instruction the model has no meaning for. No arm does. Safe. -/
  | notModelled (mnemonic : String)
  /-- Raised by `step` when the fetched control word is a format-Z op with a low nibble other than 0 (R68). Safe. -/
  | reservedLowNibble (cw : Byte)
  /-- Raised by `step` when the fetched control word has `op` 0xd, 0xe or 0xf (R68). Safe. -/
  | reservedOp (cw : Byte)
  /-- Raised by `step` when `step` is above 68: there is no control word at that address (R68, R161). Safe. -/
  | noControlWord (address : Nat)
deriving DecidableEq, Repr

/-- The levels the host drives on the input ports during one step (R22). -/
structure HostInput where
  /-- `rst`, 1 bit (R180). -/
  rst   : Bool
  /-- `start`, 1 bit (R135). -/
  start : Bool
  /-- `m_in`, 16 bytes (R40, R41). -/
  mIn   : Block
  /-- `t_in`, 16 bytes (R40, R41). -/
  tIn   : Block
  /-- `k_in`, 16 bytes (R40, R41). -/
  kIn   : Block
deriving DecidableEq, Repr

/-- A host that drives nothing: `rst` and `start` low, the three data ports at zero. It is what the ports carry
after the last entry of `State.inputs`. DESIGN CHOICE, unsafe for a claim that takes such a run for a run under
every host; log entry 2. -/
def HostInput.idle : HostInput :=
  { rst := false, start := false, mIn := Block.zero, tIn := Block.zero, kIn := Block.zero }

/-- The state: the registers of R10 under the spec's own names, then two fields that are the model's. -/
structure State where
  /-- Trunk state (R11). -/
  S : Block
  /-- Fork register, the feed-forward mask (R12). -/
  F : Block
  /-- Tweakey half 1, from the tweak (R13). -/
  TK1 : Block
  /-- Tweakey half 2, from the key (R14). -/
  TK2 : Block
  /-- The schedule store `RTK[0..15]` (R15). -/
  RTK : Vector Block 16
  /-- The lane register file `B[0..7]` (R16). -/
  B : Vector Block 8
  /-- The output register, 128 bytes (R17). -/
  OUT : Vector Byte 128
  /-- The program counter of the sequencer, 7 bits (R18). -/
  step : BitVec 7
  /-- An evaluation is in progress (R19). -/
  busy : Bool
  /-- `OUT` holds the result of the most recent evaluation (R20). -/
  done : Bool
  /-- The model's own: the control ROM's words where they differ from R69, as address and word pairs in the
  canonical form of `Memory.wf`. `[]` is the hardware's ROM; no step writes it (R23, R53). DESIGN CHOICE, safe; log
  entry 3. -/
  rom : List Host.Cell
  /-- The model's own: what the host drives on the ports, the first entry during the next step, the second during
  the step after it, and so on; after the last entry the ports carry `HostInput.idle`. DESIGN CHOICE, log
  entries 1 and 2. -/
  inputs : List HostInput
deriving DecidableEq, Repr

/-- The registers after reset, as R25 lists them; the ROM is the hardwired one and the host drives nothing yet. -/
def State.reset : State where
  S := Block.zero
  F := Block.zero
  TK1 := Block.zero
  TK2 := Block.zero
  RTK := Vector.replicate 16 Block.zero
  B := Vector.replicate 8 Block.zero
  OUT := Vector.replicate 128 0
  step := 0
  busy := false
  done := false
  rom := []
  inputs := []

end Sys2Proof.Machine
end

