-- ==== Sys2Proof/Machine/Memory.lean ====
section
/-! DEFINITION. The control ROM as the one addressed store of CORE (spec/20_memory.md R40: 69 words, addresses 0..68).
It is held as the list of cells that differ from the hardwired words; an unlisted address reads as R69's word, and
no address above 68 exists. No op and no host action writes it (R53): `Memory.write` is called by
`State.withFetchWord` alone. -/

namespace Sys2Proof.Machine

/-- What is listed at address `a`. -/
def Memory.listed : List Host.Cell → Nat → Option Byte
  | [], _ => none
  | (b, v) :: m, a => if a = b then some v else Memory.listed m a

/-- The word at address `a`: the listed one, else the hardwired one (R69); none above 68 (R68). -/
def Memory.read (m : List Host.Cell) (a : Nat) : Option Byte :=
  if a < Config.nsteps then
    match Memory.listed m a with
    | some v => some v
    | none => romWord a
  else none

/-- Leave out address `a`. -/
def Memory.erase : List Host.Cell → Nat → List Host.Cell
  | [], _ => []
  | (b, v) :: m, a => if a = b then Memory.erase m a else (b, v) :: Memory.erase m a

/-- Put `(a, v)` in its place in a rising list that does not list `a`. -/
def Memory.insert : List Host.Cell → Nat → Byte → List Host.Cell
  | [], a, v => [(a, v)]
  | (b, w) :: m, a, v => if a < b then (a, v) :: (b, w) :: m else (b, w) :: Memory.insert m a v

/-- Put the word `v` at address `a`, keeping the canonical form: writing the hardwired word removes the entry; an
address above 68 does not exist and nothing is written. -/
def Memory.write (m : List Host.Cell) (a : Nat) (v : Byte) : List Host.Cell :=
  if a < Config.nsteps then
    if romWord a = some v then Memory.erase m a else Memory.insert (Memory.erase m a) a v
  else m

/-- The list's addresses are at least `lo` and strictly rising. -/
def Memory.risingFrom : Nat → List Host.Cell → Bool
  | _, [] => true
  | lo, (a, _) :: m => decide (lo ≤ a) && Memory.risingFrom (a + 1) m

/-- The canonical form: addresses strictly rising, each a ROM address, no entry equal to the hardwired word. -/
def Memory.wf (m : List Host.Cell) : Bool :=
  Memory.risingFrom 0 m && m.all fun c => decide (c.1 < Config.nsteps) && !decide (romWord c.1 = some c.2)

end Sys2Proof.Machine
end

