-- ==== Sys2Proof/Machine/Ops.lean ====
section
/-! DEFINITION. The named operations over Blocks and the state that the ops share: one update per register, the
advance of `step`, the write of `OUT`, reset, the input ports and the fetch. CORE takes no exception and returns from
none (spec/60_exceptions.md R160, R164), so there is no such operation; the one way out of the straight line is
reset, `State.applyReset` (R180). -/

namespace Sys2Proof

/-- `a ^ b` on Blocks, byte by byte (spec/00_scope.md section 5.1). -/
def Block.xor (X Y : Block) : Block := Vector.ofFn fun j => X[j] ^^^ Y[j]

end Sys2Proof

namespace Sys2Proof.Machine

/-! Register updates, one for each field of State. A register an update does not name keeps its value. -/

def State.setS (s : State) (v : Block) : State := { s with S := v }
def State.setF (s : State) (v : Block) : State := { s with F := v }
def State.setTK1 (s : State) (v : Block) : State := { s with TK1 := v }
def State.setTK2 (s : State) (v : Block) : State := { s with TK2 := v }
def State.setRTK (s : State) (v : Vector Block 16) : State := { s with RTK := v }
def State.setB (s : State) (v : Vector Block 8) : State := { s with B := v }
def State.setOUT (s : State) (v : Vector Byte 128) : State := { s with OUT := v }
def State.setStep (s : State) (v : BitVec 7) : State := { s with step := v }
def State.setBusy (s : State) (v : Bool) : State := { s with busy := v }
def State.setDone (s : State) (v : Bool) : State := { s with done := v }
def State.setRom (s : State) (v : List Host.Cell) : State := { s with rom := v }
def State.setInputs (s : State) (v : List HostInput) : State := { s with inputs := v }

/-- `RTK[k] <- v`; the other fifteen entries keep their values (R110). -/
def State.writeRTK (s : State) (k : Fin 16) (v : Block) : State := s.setRTK (s.RTK.set k v)

/-- `B[i] <- f i B[i]` for the eight lanes, all in one step, each lane from its own old value (R16, R143). -/
def State.mapLanes (s : State) (f : Fin 8 → Block → Block) : State :=
  s.setB (Vector.ofFn fun i => f i s.B[i])

/-- `step <- step + 1` (R134), on the 7-bit register of R18. -/
def State.nextStep (s : State) : State := s.setStep (s.step + 1)

/-- `MemWrite(OUT + 16i, 16, v)`: `OUT[16i + j] <- v[j]` for `j` in 0..15 (R42). -/
def memWriteOut (out : Vector Byte 128) (i : Fin 8) (v : Block) : Vector Byte 128 :=
  Vector.ofFn fun a => if a.val / 16 = i.val then v[Fin.ofNat 16 a.val] else out[a]

/-- The eight writes of `MASK`, `i` = 0..7, which happen in one step (R42, R48). -/
def memWriteOutAll (out : Vector Byte 128) (v : Fin 8 → Block) : Vector Byte 128 :=
  (List.finRange 8).foldl (fun o i => memWriteOut o i (v i)) out

/-- What the host drives on the ports during the next step (R22). -/
def State.ports (s : State) : HostInput :=
  match s.inputs with
  | [] => HostInput.idle
  | p :: _ => p

/-- The step is over: the ports carry the host's next levels. -/
def State.consumeInput (s : State) : State := s.setInputs s.inputs.tail

/-- Reset (R180): every register at its value of R25. The ROM is hardwired and the host's inputs are not CORE's, so
neither is a register and both stay. -/
def State.applyReset (s : State) : State := (State.reset.setRom s.rom).setInputs s.inputs

/-- Fetch: the control word at address `step`, none above 68 (R64, R68). -/
def State.fetch (s : State) : Option Byte := Memory.read s.rom s.step.toNat

end Sys2Proof.Machine
end

