-- ==== Sys2Proof/Machine/BranchKey.lean ====
section
/-! DEFINITION. Branch key derivation, the pure function inside the lane ops `BXORK`, `BAESR` and `MASK`
(spec/42_branch_key.md R120 to R124). -/

namespace Sys2Proof.Machine

/-- `branch_key(K, c)`: the byte `c` is XORed into column 2, bytes 8..11; every other byte is kept (R120). -/
def branchKey (K : Block) (c : Byte) : Block :=
  Vector.ofFn fun j => if 8 ≤ j.val ∧ j.val ≤ 11 then K[j] ^^^ c else K[j]

/-- `BC(c)`, the Block with `c` in the four bytes of column 2 and zero elsewhere (R120). -/
def branchConstantBlock (c : Byte) : Block :=
  Vector.ofFn fun j => if 8 ≤ j.val ∧ j.val ≤ 11 then c else 0

end Sys2Proof.Machine
end

