-- ==== Sys2Proof/Machine/Operands.lean ====
section
/-! DEFINITION. The operand forms of the ops. A format-K op names `RTK[k]` by its index; everything else is implicit:
the round tweakey as a lane uses it, the lane's constant, and the three input ports of `WAIT` (spec/30_encoding.md R66,
R70; spec/20_memory.md R41). -/

namespace Sys2Proof.Machine

/-- `RTK[k]` (R15, R66). -/
def State.rtkOperand (s : State) (k : Fin 16) : Block := s.RTK[k]

/-- The key lane `i` derives from `RTK[k]` when it uses it: `branch_key(RTK[k], i + 1)` (R121, R123). -/
def State.laneKey (s : State) (k : Fin 16) (i : Fin 8) : Block := branchKey (s.rtkOperand k) (branchConstant i)

/-- `MemRead(IN_M, 16)`: the sixteen bytes on port `m_in` during this step (R41). -/
def State.memReadM (s : State) : Block := s.ports.mIn

/-- `MemRead(IN_T, 16)`: the sixteen bytes on port `t_in` during this step (R41). -/
def State.memReadT (s : State) : Block := s.ports.tIn

/-- `MemRead(IN_K, 16)`: the sixteen bytes on port `k_in` during this step (R41). -/
def State.memReadK (s : State) : Block := s.ports.kIn

end Sys2Proof.Machine
end

