-- ==== Sys2Proof/Machine/AesRound.lean ====
section
/-! DEFINITION. The AES round pipeline: the round function and the trunk ops `XORK`, `AESR`, `AESRZ`
(spec/40_aes_round.md R80 to R92). The tables and offsets of R81 to R84 are the spec's own from general knowledge
(log entry 9). -/

namespace Sys2Proof.Machine

/-- `xtime(a)`: multiplication by 2 modulo `0x11b` (R82). -/
def xtime (a : Byte) : Byte := if a.getLsbD 7 then (a <<< 1) ^^^ 0x1b else a <<< 1

/-- `2 • a` (R82). -/
def mul2 (a : Byte) : Byte := xtime a

/-- `3 • a` (R82). -/
def mul3 (a : Byte) : Byte := xtime a ^^^ a

/-- `sub_bytes(X)[j] = SBOX[X[j]]` (R81). -/
def subBytes (X : Block) : Block := Vector.ofFn fun j => sbox X[j]

/-- Where `shift_rows` takes byte `j = 4c + r` from: `4·((c + r) mod 4) + r` (R83). -/
def shiftRowsSource (j : Fin 16) : Fin 16 := Fin.ofNat 16 (4 * ((j.val / 4 + j.val % 4) % 4) + j.val % 4)

/-- `shift_rows(X)`: row `r` is rotated left by `r` columns (R83). -/
def shiftRows (X : Block) : Block := Vector.ofFn fun j => X[shiftRowsSource j]

/-- One column of `mix_columns` (R84). -/
def mixColumn (a0 a1 a2 a3 : Byte) : Vector Byte 4 :=
  #v[mul2 a0 ^^^ mul3 a1 ^^^ a2 ^^^ a3,
     a0 ^^^ mul2 a1 ^^^ mul3 a2 ^^^ a3,
     a0 ^^^ a1 ^^^ mul2 a2 ^^^ mul3 a3,
     mul3 a0 ^^^ a1 ^^^ a2 ^^^ mul2 a3]

/-- The byte of `X` at column `c`, row `r`: `X[4c + r]` (R60). -/
def byteAt (X : Block) (c r : Fin 4) : Byte := X[4 * c.val + r.val]

/-- `mix_columns(X)`: each column on its own (R84). -/
def mixColumns (X : Block) : Block :=
  Vector.ofFn fun j =>
    let c : Fin 4 := Fin.ofNat 4 (j.val / 4)
    (mixColumn (byteAt X c 0) (byteAt X c 1) (byteAt X c 2) (byteAt X c 3))[Fin.ofNat 4 j.val]

/-- `add_round_key(X, K)[j] = X[j] ^ K[j]` (R85). -/
def addRoundKey (X K : Block) : Block := Block.xor X K

/-- `aes_round(X, K)`, always the full round (R80, R86, R87). -/
def aesRound (X K : Block) : Block := addRoundKey (mixColumns (shiftRows (subBytes X))) K

/-- `XORK k`: `S <- add_round_key(S, RTK[k])`, `step <- step + 1` (R90). -/
def execXork (k : Fin 16) (s : State) : Host.Outcome State Fault Refusal :=
  .next (s.setS (addRoundKey s.S (s.rtkOperand k))).nextStep

/-- `AESR k`: `S <- aes_round(S, RTK[k])`, `step <- step + 1` (R91). -/
def execAesr (k : Fin 16) (s : State) : Host.Outcome State Fault Refusal :=
  .next (s.setS (aesRound s.S (s.rtkOperand k))).nextStep

/-- `AESRZ`: `S <- aes_round(S, ZERO)`, `step <- step + 1` (R92). -/
def execAesrz (s : State) : Host.Outcome State Fault Refusal :=
  .next (s.setS (aesRound s.S Block.zero)).nextStep

end Sys2Proof.Machine
end

