-- ==== Sys2Proof/Machine/Flags.lean ====
section
/-! DEFINITION. The two status bits `busy` and `done`, the only flags of CORE (spec/10_state.md R19 to R21): what the
accepting `WAIT` does to them and what `FIN` does to them. No other op writes either. -/

namespace Sys2Proof.Machine

/-- The `WAIT` step that accepts a start: `busy <- 1`, `done <- 0` (R136). -/
def State.flagsOnAccept (s : State) : State := (s.setBusy true).setDone false

/-- `FIN`: `busy <- 0`, `done <- 1` (R142). -/
def State.flagsOnFinish (s : State) : State := (s.setBusy false).setDone true

end Sys2Proof.Machine
end

