-- ==== Sys2Proof/Machine/Schedule.lean ====
section
/-! DEFINITION. The Deoxys-BC-256 tweakey schedule engine: `rtk_assemble`, `h_perm`, `g_lfsr`, `g_block` and the ops
`RTK`, `TKH`, `TKG` (spec/41_tweakey_schedule.md R100 to R112). The direction of `PERM` and the half that `G` acts on
are the spec's text, which no number of the source confirms (log entry 10). -/

namespace Sys2Proof.Machine

/-- `rtk_assemble(T1, T2, r)` (R102): `C0[row]` into column 0, `RCON[r]` into the four bytes of column 1. -/
def rtkAssemble (T1 T2 : Block) (r : Fin 16) : Block :=
  Vector.ofFn fun j =>
    if j.val < 4 then T1[j] ^^^ T2[j] ^^^ c0[Fin.ofNat 4 j.val]
    else if j.val < 8 then T1[j] ^^^ T2[j] ^^^ rcon r
    else T1[j] ^^^ T2[j]

/-- `RC(r)`, the constant Block `01 02 04 08 q q q q 00 ..` with `q = RCON[r]` (R102). -/
def roundConstantBlock (r : Fin 16) : Block :=
  Vector.ofFn fun j => if j.val < 4 then c0[Fin.ofNat 4 j.val] else if j.val < 8 then rcon r else 0

/-- `h_perm(T)`, in the gather form `N[j] = T[PERMINV[j]]` of R103. That it is the scatter `N[PERM[i]] = T[i]` is
the obligation `HPermScattersBytes`. -/
def hPerm (T : Block) : Block := Vector.ofFn fun j => T[permInv j]

/-- `g_lfsr(b) = ((b << 1) | (((b & 0x20) >> 5) ^ ((b & 0x80) >> 7))) & 0xFF` (R104). -/
def gLfsr (b : Byte) : Byte := (b <<< 1) ||| (((b &&& 0x20) >>> 5) ^^^ ((b &&& 0x80) >>> 7))

/-- `g_block(T)[j] = g_lfsr(T[j])` (R105). -/
def gBlock (T : Block) : Block := Vector.ofFn fun j => gLfsr T[j]

/-- `RTK k`: `RTK[k] <- rtk_assemble(TK1, TK2, k)`, `step <- step + 1` (R110). -/
def execRtk (k : Fin 16) (s : State) : Host.Outcome State Fault Refusal :=
  .next (s.writeRTK k (rtkAssemble s.TK1 s.TK2 k)).nextStep

/-- `TKH`: `TK1 <- h_perm(TK1)`, `TK2 <- h_perm(TK2)`, `step <- step + 1` (R111). -/
def execTkh (s : State) : Host.Outcome State Fault Refusal :=
  .next ((s.setTK1 (hPerm s.TK1)).setTK2 (hPerm s.TK2)).nextStep

/-- `TKG`: `TK1 <- g_block(TK1)`, `step <- step + 1` (R112). -/
def execTkg (s : State) : Host.Outcome State Fault Refusal :=
  .next (s.setTK1 (gBlock s.TK1)).nextStep

end Sys2Proof.Machine
end

