-- ==== Sys2Proof/Machine/Evaluator.lean ====
section
/-! DEFINITION. Fork-join control and feed-forward masking: the ops `WAIT`, `FORK`, `BXORK`, `BAESR`, `BAESRZ`, `MASK`
and `FIN` (spec/43_evaluator.md R136 to R143). -/

namespace Sys2Proof.Machine

/-- The accepting `WAIT`: load the three ports, set the flags, `step <- 1` (R136). -/
def State.acceptStart (s : State) : State :=
  ((((s.setS s.memReadM).setTK1 s.memReadT).setTK2 s.memReadK).flagsOnAccept).setStep 1

/-- `WAIT`: idle until `start` is 1; then accept and load (R136). With `start = 0`, `step <- 0` and nothing else. -/
def execWait (s : State) : Host.Outcome State Fault Refusal :=
  .next (if s.ports.start then s.acceptStart else s.setStep 0)

/-- `FORK`: `F <- S`, `B[i] <- S` for the eight lanes, `step <- step + 1` (R137). -/
def execFork (s : State) : Host.Outcome State Fault Refusal :=
  .next ((s.setF s.S).mapLanes fun _ _ => s.S).nextStep

/-- `BXORK k`: `B[i] <- B[i] ^ branch_key(RTK[k], i + 1)`, `step <- step + 1` (R138). -/
def execBxork (k : Fin 16) (s : State) : Host.Outcome State Fault Refusal :=
  .next (s.mapLanes fun i b => Block.xor b (s.laneKey k i)).nextStep

/-- `BAESR k`: `B[i] <- aes_round(B[i], branch_key(RTK[k], i + 1))`, `step <- step + 1` (R139). -/
def execBaesr (k : Fin 16) (s : State) : Host.Outcome State Fault Refusal :=
  .next (s.mapLanes fun i b => aesRound b (s.laneKey k i)).nextStep

/-- `BAESRZ`: `B[i] <- aes_round(B[i], ZERO)`, `step <- step + 1` (R140). -/
def execBaesrz (s : State) : Host.Outcome State Fault Refusal :=
  .next (s.mapLanes fun _ b => aesRound b Block.zero).nextStep

/-- What `MASK k` emits for lane `i`: `B[i] ^ branch_key(RTK[k], i + 1) ^ F` (R141). -/
def State.maskedLane (s : State) (k : Fin 16) (i : Fin 8) : Block :=
  Block.xor (Block.xor s.B[i] (s.laneKey k i)) s.F

/-- `MASK k`: the 16-byte slot `i` of `OUT` receives lane `i`'s masked Block, all eight in one step;
`step <- step + 1` (R141). -/
def execMask (k : Fin 16) (s : State) : Host.Outcome State Fault Refusal :=
  .next (s.setOUT (memWriteOutAll s.OUT (s.maskedLane k))).nextStep

/-- The clearing of the internal data registers: `S`, `F`, `TK1`, `TK2`, every `RTK[r]` and every `B[i]` become
`ZERO`; `OUT` is kept (R142). -/
def State.clearInternal (s : State) : State :=
  (((((s.setS Block.zero).setF Block.zero).setTK1 Block.zero).setTK2 Block.zero).setRTK
    (Vector.replicate 16 Block.zero)).setB (Vector.replicate 8 Block.zero)

/-- `FIN`: clear the internal registers, `busy <- 0`, `done <- 1`, `step <- 0` (R142). -/
def execFin (s : State) : Host.Outcome State Fault Refusal :=
  .next (s.clearInternal.flagsOnFinish.setStep 0)

end Sys2Proof.Machine
end

