-- ==== Sys2Proof/Machine/Dispatch.lean ====
section
/-! DEFINITION. Dispatch: one arm for each of the thirteen ops, each one call of its meaning. -/

namespace Sys2Proof.Machine

def exec (i : Instr) (s : State) : Host.Outcome State Fault Refusal :=
  match i with
  | .wait => Sys2Proof.Machine.execWait s
  | .rtk k => Sys2Proof.Machine.execRtk k s
  | .tkh => Sys2Proof.Machine.execTkh s
  | .tkg => Sys2Proof.Machine.execTkg s
  | .xork k => Sys2Proof.Machine.execXork k s
  | .aesr k => Sys2Proof.Machine.execAesr k s
  | .aesrz => Sys2Proof.Machine.execAesrz s
  | .fork => Sys2Proof.Machine.execFork s
  | .bxork k => Sys2Proof.Machine.execBxork k s
  | .baesr k => Sys2Proof.Machine.execBaesr k s
  | .baesrz => Sys2Proof.Machine.execBaesrz s
  | .mask k => Sys2Proof.Machine.execMask k s
  | .fin => Sys2Proof.Machine.execFin s

end Sys2Proof.Machine
end

