-- ==== Sys2Proof/Machine/Step.lean ====
section
/-! DEFINITION. One step of the sequencer (spec/43_evaluator.md R133), and the placing of a control word where the next
step fetches it. -/

namespace Sys2Proof.Machine

/-- The refusal a step answers when the decoder rejects the fetched word (R68, R161). -/
def refusalOf (cw : Byte) : DecodeReject → Refusal
  | .noBytes => .reservedOp cw
  | .reservedLowNibble w => .reservedLowNibble w
  | .reservedOp w => .reservedOp w

/-- Fetch, decode and execute the op at `step` (R133 (b)); the ports then carry the host's next levels. -/
def runFetched (s : State) : Host.Outcome State Fault Refusal :=
  match s.fetch with
  | none => .refused (.noControlWord s.step.toNat)
  | some cw =>
    match decodeWord cw with
    | .error e => .refused (refusalOf cw e)
    | .ok i =>
      match exec i s with
      | .next t => .next t.consumeInput
      | .fault r => .fault r
      | .refused r => .refused r

/-- A step (R133): with `rst = 1`, reset and nothing else (R180, R163); otherwise the op at `step`. -/
def step (s : State) : Host.Outcome State Fault Refusal :=
  if s.ports.rst then .next s.applyReset.consumeInput else runFetched s

/-- The host's inputs with `rst` low during the next step, all else as it was. -/
def withoutReset : List HostInput → List HostInput
  | [] => []
  | p :: ps => { p with rst := false } :: ps

/-- `s` with the control word `w` stored at the ROM address the next step fetches from, and `rst` low during that
step. An address above 68 does not exist: there `step` becomes 0. The hardware has no such write: its ROM is
hardwired and is its one program (R53, R69); log entries 3 and 4. -/
def State.withFetchWord (s : State) (nbits w : Nat) : State :=
  let a : BitVec 7 := if s.step.toNat < Config.nsteps then s.step else 0
  let cw : Byte := (tableBytes nbits w).headD 0
  ((s.setStep a).setRom (Memory.write s.rom a.toNat cw)).setInputs (withoutReset s.inputs)

end Sys2Proof.Machine
end

