-- ==== Sys2Proof/Machine/Counts.lean ====
section
/-! DEFINITION. How often the ops apply each function of the spec, for the counts of spec/43_evaluator.md R145: every op
once more over functions that count their own application. What counts as one application is log entry 16. -/

namespace Sys2Proof.Machine

/-- Applications of each function, on the register or on the eight lanes they act on (R145). -/
structure Counts where
  aesRoundS : Nat := 0
  aesRoundLanes : Nat := 0
  keyXorS : Nat := 0
  keyXorLanes : Nat := 0
  rtkAssemble : Nat := 0
  hPermTK1 : Nat := 0
  hPermTK2 : Nat := 0
  gBlock : Nat := 0
deriving DecidableEq, Repr

/-- No application. -/
def Counts.none : Counts := {}

/-- The applications of both. -/
def Counts.add (a b : Counts) : Counts :=
  { aesRoundS := a.aesRoundS + b.aesRoundS, aesRoundLanes := a.aesRoundLanes + b.aesRoundLanes,
    keyXorS := a.keyXorS + b.keyXorS, keyXorLanes := a.keyXorLanes + b.keyXorLanes,
    rtkAssemble := a.rtkAssemble + b.rtkAssemble, hPermTK1 := a.hPermTK1 + b.hPermTK1,
    hPermTK2 := a.hPermTK2 + b.hPermTK2, gBlock := a.gBlock + b.gBlock }

/-- A value, with the applications made to compute it. -/
structure Counted (α : Type) where
  value : α
  counts : Counts := Counts.none
deriving DecidableEq, Repr

/-- Use a counted value; the applications of both add up. -/
def Counted.bind {α β : Type} (x : Counted α) (f : α → Counted β) : Counted β :=
  { value := (f x.value).value, counts := x.counts.add (f x.value).counts }

/-- Use a counted value without a further application. -/
def Counted.map {α β : Type} (f : α → β) (x : Counted α) : Counted β := { value := f x.value, counts := x.counts }

/-- `aes_round` on `S`. -/
def countedRoundS (X K : Block) : Counted Block := { value := aesRound X K, counts := { aesRoundS := 1 } }

/-- `aes_round` on a lane. -/
def countedRoundLane (X K : Block) : Counted Block := { value := aesRound X K, counts := { aesRoundLanes := 1 } }

/-- A key addition without a round, on `S`. -/
def countedXorS (X K : Block) : Counted Block := { value := addRoundKey X K, counts := { keyXorS := 1 } }

/-- A key addition without a round, on a lane. -/
def countedXorLane (X K : Block) : Counted Block := { value := Block.xor X K, counts := { keyXorLanes := 1 } }

/-- `rtk_assemble`. -/
def countedAssemble (T1 T2 : Block) (r : Fin 16) : Counted Block :=
  { value := rtkAssemble T1 T2 r, counts := { rtkAssemble := 1 } }

/-- `h_perm` on `TK1`. -/
def countedHPermTK1 (T : Block) : Counted Block := { value := hPerm T, counts := { hPermTK1 := 1 } }

/-- `h_perm` on `TK2`. -/
def countedHPermTK2 (T : Block) : Counted Block := { value := hPerm T, counts := { hPermTK2 := 1 } }

/-- `g_block`. -/
def countedGBlock (T : Block) : Counted Block := { value := gBlock T, counts := { gBlock := 1 } }

/-- Eight counted Blocks, one a lane, with the applications of all eight. -/
def countedLanes (f : Fin 8 → Counted Block) : Counted (Fin 8 → Block) :=
  { value := fun i => (f i).value, counts := (List.finRange 8).foldl (fun c i => c.add (f i).counts) Counts.none }

/-- The op once more (R90 to R92, R110 to R112, R136 to R142), over the counting functions. -/
def execCounted (i : Instr) (s : State) : Counted (Host.Outcome State Fault Refusal) :=
  match i with
  | .wait => { value := .next (if s.ports.start then s.acceptStart else s.setStep 0) }
  | .rtk k => (countedAssemble s.TK1 s.TK2 k).map fun v => .next (s.writeRTK k v).nextStep
  | .tkh => (countedHPermTK1 s.TK1).bind fun v => (countedHPermTK2 s.TK2).map fun w =>
      .next ((s.setTK1 v).setTK2 w).nextStep
  | .tkg => (countedGBlock s.TK1).map fun v => .next (s.setTK1 v).nextStep
  | .xork k => (countedXorS s.S (s.rtkOperand k)).map fun v => .next (s.setS v).nextStep
  | .aesr k => (countedRoundS s.S (s.rtkOperand k)).map fun v => .next (s.setS v).nextStep
  | .aesrz => (countedRoundS s.S Block.zero).map fun v => .next (s.setS v).nextStep
  | .fork => { value := .next ((s.setF s.S).mapLanes fun _ _ => s.S).nextStep }
  | .bxork k => (countedLanes fun i => countedXorLane s.B[i] (s.laneKey k i)).map fun v =>
      .next (s.mapLanes fun i _ => v i).nextStep
  | .baesr k => (countedLanes fun i => countedRoundLane s.B[i] (s.laneKey k i)).map fun v =>
      .next (s.mapLanes fun i _ => v i).nextStep
  | .baesrz => (countedLanes fun i => countedRoundLane s.B[i] Block.zero).map fun v =>
      .next (s.mapLanes fun i _ => v i).nextStep
  | .mask k => (countedLanes fun i => countedXorLane s.B[i] (s.laneKey k i)).map fun v =>
      .next (s.setOUT (memWriteOutAll s.OUT fun i => Block.xor (v i) s.F)).nextStep
  | .fin => { value := .next (s.clearInternal.flagsOnFinish.setStep 0) }

/-- The applications the next step makes: those of the op it fetches, none in a reset step. -/
def stepCounts (s : State) : Counts :=
  if s.ports.rst then Counts.none
  else
    match s.fetch with
    | none => Counts.none
    | some cw =>
      match decodeWord cw with
      | .error _ => Counts.none
      | .ok i => (execCounted i s).counts

/-- The applications of the next `n` steps, as far as they answer a next state. -/
def runCounts : Nat → State → Counts
  | 0, _ => Counts.none
  | n + 1, s =>
    match step s with
    | .next t => (stepCounts s).add (runCounts n t)
    | .fault _ => Counts.none
    | .refused _ => Counts.none

end Sys2Proof.Machine
end

