-- ==== Sys2Proof/Machine/Eval.lean ====
section
/-! DEFINITION. The function CORE computes, as the spec sequences it, apart from the machine that walks it:
`schedule` (spec/41_tweakey_schedule.md R107) and `eval` (spec/43_evaluator.md R130). The step function calls neither; the
obligations state that 69 steps give `eval`. -/

namespace Sys2Proof.Machine

/-- `T1` and `T2` of R107 as they stand when round tweakey `r` is assembled. -/
def tweakeyHalves (tweak key : Block) : Nat → Block × Block
  | 0 => (tweak, key)
  | r + 1 =>
    let p := tweakeyHalves tweak key r
    (gBlock (hPerm p.1), hPerm p.2)

/-- `RTK[r]` of `schedule(tweak, key)` (R107). -/
def roundTweakey (tweak key : Block) (r : Fin 16) : Block :=
  rtkAssemble (tweakeyHalves tweak key r.val).1 (tweakeyHalves tweak key r.val).2 r

/-- `schedule(tweak, key)`: the sixteen round tweakeys (R107). -/
def schedule (tweak key : Block) : Vector Block 16 := Vector.ofFn (roundTweakey tweak key)

/-- Steps 1 to 3 of R130 as far as trunk round `j`: whitening, then rounds 1..`j` (all six from `j` = 6 on). -/
def trunkRounds (message : Block) (rtk : Vector Block 16) (j : Nat) : Block :=
  (([1, 2, 3, 4, 5, 6] : List (Fin 16)).take j).foldl (fun x r => aesRound x rtk[r]) (Block.xor message rtk[0])

/-- Steps 1 to 4 of R130: the state after the trunk closing round, which is the fork state. -/
def forkState (message : Block) (rtk : Vector Block 16) : Block :=
  aesRound (trunkRounds message rtk 6) Block.zero

/-- Steps 5 to 7 of R130 for lane `i` as far as branch round `j`: whitening, then rounds 1..`j` (all seven from
`j` = 7 on). -/
def branchRounds (fork : Block) (rtk : Vector Block 16) (i : Fin 8) (j : Nat) : Block :=
  (([8, 9, 10, 11, 12, 13, 14] : List (Fin 16)).take j).foldl
    (fun x r => aesRound x (branchKey rtk[r] (branchConstant i)))
    (Block.xor fork (branchKey rtk[7] (branchConstant i)))

/-- Steps 5 to 8 of R130 for lane `i`: whitening, branch rounds 1..7, branch closing round. -/
def branchState (fork : Block) (rtk : Vector Block 16) (i : Fin 8) : Block :=
  aesRound (branchRounds fork rtk i 7) Block.zero

/-- Step 9 of R130 for lane `i`: `branch[i] ^ branch_key(RTK[15], i + 1) ^ fork`. -/
def outputLane (message tweak key : Block) (i : Fin 8) : Block :=
  let rtk := schedule tweak key
  let fork := forkState message rtk
  Block.xor (Block.xor (branchState fork rtk i) (branchKey rtk[15] (branchConstant i))) fork

/-- `eval(message, tweak, key)`: `output[16i .. 16i + 15]` is lane `i` (R130). -/
def eval (message tweak key : Block) : Vector Byte 128 :=
  let lanes := Vector.ofFn (outputLane message tweak key)
  Vector.ofFn fun a => (lanes[Fin.ofNat 8 (a.val / 16)])[Fin.ofNat 16 a.val]

/-! What the working registers hold when `step` is `n`, that is before the op at ROM address `n` is executed, in an
evaluation that has passed addresses 0 to `n - 1` of R69. -/

/-- `TK1` and `TK2` at `step = n`: round `r`'s halves while `RTK r` (address `1 + 3r`) and `TKH` (`2 + 3r`) are next,
both permuted while `TKG` (`3 + 3r`) is next, and the halves after round 15 from address 49 on (R69, R106). -/
def tweakeyHalvesAt (tweak key : Block) (n : Nat) : Block × Block :=
  let j := min (n - 1) 48
  let p := tweakeyHalves tweak key (j / 3)
  if j % 3 = 2 then (hPerm p.1, hPerm p.2) else p

/-- `S` at `step = n`: the message as far as address 49, where `XORK 0` is next; whitened and after `n - 50` rounds at
50..56; the fork state from 57 on (R69, R11). -/
def trunkAt (message : Block) (rtk : Vector Block 16) (n : Nat) : Block :=
  if n ≤ 49 then message else if n ≤ 56 then trunkRounds message rtk (n - 50) else forkState message rtk

/-- `B[i]` at `step = n`, from 58 on: the fork state at 58, where `BXORK 7` is next; whitened and after `n - 59` rounds
at 59..66; the branch state from 67 on (R69, R16). -/
def laneAt (fork : Block) (rtk : Vector Block 16) (i : Fin 8) (n : Nat) : Block :=
  if n ≤ 58 then fork else if n ≤ 66 then branchRounds fork rtk i (n - 59) else branchState fork rtk i

end Sys2Proof.Machine
end

