-- ==== Sys2Proof/Machine/Gf.lean ====
section
/-! DEFINITION. GF(2^8) of spec/40_aes_round.md R82 in full and the formula that generates the S-box (R81). The
machine itself multiplies by 1, 2 and 3 only; these are what the tables are held against. -/

namespace Sys2Proof.Machine

/-- `a • b` from the low `n` bits of `a`: the sum of `x^i • b` over the set bits `i` (R82). -/
def gfMulBits : Nat → Byte → Byte → Byte
  | 0, _, _ => 0
  | n + 1, a, b => (if a.getLsbD 0 then b else 0) ^^^ gfMulBits n (a >>> 1) (xtime b)

/-- `a • b` (R82). -/
def gfMul (a b : Byte) : Byte := gfMulBits 8 a b

/-- `rotl8(b, n)` (R81). -/
def rotl8 (b : Byte) (n : Nat) : Byte := (b <<< n) ||| (b >>> (8 - n))

/-- The affine map of R81 on `b = inv(a)`. -/
def sboxAffine (b : Byte) : Byte := b ^^^ rotl8 b 1 ^^^ rotl8 b 2 ^^^ rotl8 b 3 ^^^ rotl8 b 4 ^^^ 0x63

end Sys2Proof.Machine
end

