-- ==== Sys2Proof/Machine/Instances.lean ====
section
/-! DEFINITION. Several CORE instances: N independent copies of the machine that share nothing, stepped in any
interleaving (spec/60_exceptions.md R170, spec/20_memory.md R55). -/

namespace Sys2Proof.Machine

/-- One step of instance `n`; the others stay as they are. No answer if there is no instance `n` or its step does
not answer a next state. -/
def stepInstance (ms : List State) (n : Nat) : Option (List State) :=
  match ms[n]? with
  | none => none
  | some s =>
    match step s with
    | .next t => some (ms.set n t)
    | .fault _ => none
    | .refused _ => none

/-- The steps of an interleaving: which instance moves, in order. -/
def runInterleaved : List Nat → List State → Option (List State)
  | [], ms => some ms
  | n :: ns, ms =>
    match stepInstance ms n with
    | none => none
    | some ms' => runInterleaved ns ms'

end Sys2Proof.Machine
end

