-- ==== Sys2Proof/Machine/Ports.lean ====
section
/-! DEFINITION. The boundary of CORE: what the host reads, and the packing of byte ports into wires
(spec/20_memory.md R40, R43, R45; spec/60_exceptions.md R166). -/

namespace Sys2Proof.Machine

/-- What the host can read: the ports `out`, `busy` and `done`, and nothing else (R166). -/
structure HostView where
  out  : Vector Byte 128
  busy : Bool
  done : Bool
deriving DecidableEq, Repr

/-- The output ports show the registers continuously; reading has no side effect (R43). -/
def State.view (s : State) : HostView := { out := s.OUT, busy := s.busy, done := s.done }

/-- Bytes side by side as a number, byte `j` at bits `[8j+7 : 8j]` (R45). -/
def packBytes (l : List Byte) : Nat := l.foldr (fun b n => b.toNat + 256 * n) 0

/-- A 16-byte port drawn as a 128-bit vector (R45). -/
def packBlock (X : Block) : BitVec 128 := BitVec.ofNat 128 (packBytes X.toList)

/-- The Block on a 128-bit vector: byte `j` from bits `[8j+7 : 8j]` (R45). -/
def unpackBlock (v : BitVec 128) : Block := Vector.ofFn fun j => v.extractLsb' (8 * j.val) 8

/-- The `out` port drawn as a 1024-bit vector (R45). -/
def packOut (o : Vector Byte 128) : BitVec 1024 := BitVec.ofNat 1024 (packBytes o.toList)

end Sys2Proof.Machine
end

