-- ==== Sys2Proof/Safety.lean ====
section
/-! DEFINITION. The terms the statements are written in: runs, launch and reachable states, the invariant, what a
step leaves unchanged, and where the control ROM holds which op. -/

namespace Sys2Proof.Machine

/-- `n` steps of the machine (Host.Core.run), stopping at the first fault or refusal. -/
def runFor (n : Nat) (s : State) : Host.Outcome State Fault Refusal := Host.Core.run Sys2Proof.core n s

/-- A launch state: the reset state, under any host (R183: "a model has no launch state other than the reset
state or a state reachable from it"). -/
def Launch (s : State) : Prop := ∃ ps, s = State.reset.setInputs ps

/-- The message, tweak and key of the evaluation accepted most recently since reset, after a step from `s`: none
after a reset, the sampled ports after an accepting `WAIT`, else as before. -/
def lastAfterStep (s : State) (last : Option (Block × Block × Block)) : Option (Block × Block × Block) :=
  if s.ports.rst then none
  else if s.step = 0 ∧ s.ports.start = true then some (s.ports.mIn, s.ports.tIn, s.ports.kIn)
  else last

/-- The states a run from a launch state reaches, each with the inputs of its most recently accepted evaluation. -/
inductive ReachableWith : State → Option (Block × Block × Block) → Prop where
  | launch {s : State} : Launch s → ReachableWith s none
  | step {s t : State} {last : Option (Block × Block × Block)} :
      ReachableWith s last → Sys2Proof.Machine.step s = .next t → ReachableWith t (lastAfterStep s last)

/-- The internal data registers are all `ZERO` (R26). -/
structure InternalZero (s : State) : Prop where
  S : s.S = Block.zero
  F : s.F = Block.zero
  TK1 : s.TK1 = Block.zero
  TK2 : s.TK2 = Block.zero
  RTK : ∀ r : Fin 16, s.RTK[r] = Block.zero
  B : ∀ i : Fin 8, s.B[i] = Block.zero

/-- The invariant of the machine: the ROM is the hardwired one (R53), `step` is 0..68 (R18), `busy` holds exactly
while `step` is not 0 (R19), `done` only while it is 0 (R20), and the idle state is the one of R26. -/
structure CoreInv (s : State) : Prop where
  rom : s.rom = []
  step_le : s.step.toNat ≤ 68
  busy_iff : s.busy = true ↔ s.step ≠ 0
  done_idle : s.done = true → s.step = 0
  idle_zero : s.step = 0 → InternalZero s
  idle_out : s.step = 0 → s.done = false → ∀ a : Fin 128, s.OUT[a] = 0

/-- What the data registers of `v` hold at `step = n`, 1..68, of an evaluation of message `m`, tweak `t` and key `k`
accepted in the state `old`: a register whose first op of the evaluation is still to come holds what it held in `old`
(R69's order; R11 to R17, R131, R188). -/
structure EvalPoint (m t k : Block) (old : State) (n : Nat) (v : State) : Prop where
  S : v.S = trunkAt m (schedule t k) n
  TK1 : v.TK1 = (tweakeyHalvesAt t k n).1
  TK2 : v.TK2 = (tweakeyHalvesAt t k n).2
  RTK : ∀ r : Fin 16, v.RTK[r] = if 1 + 3 * r.val < n then (schedule t k)[r] else old.RTK[r]
  F : v.F = if n ≤ 57 then old.F else forkState m (schedule t k)
  B : ∀ i : Fin 8, v.B[i] = if n ≤ 57 then old.B[i] else laneAt (forkState m (schedule t k)) (schedule t k) i n
  OUT : v.OUT = if n ≤ 67 then old.OUT else eval m t k

/-- The invariant of a state and the inputs of the evaluation accepted most recently since reset: `CoreInv`; `done = 1`
says that `OUT` is that evaluation's result (R20); idle without `done` says that nothing has been accepted (R26); and
while `step` is not 0 the data registers hold what that evaluation, accepted in an idle state, has put there (R69). -/
structure LastInv (s : State) (last : Option (Block × Block × Block)) : Prop where
  core : CoreInv s
  done_result : s.done = true → ∃ m t k, last = some (m, t, k) ∧ s.OUT = eval m t k
  fresh_none : s.step = 0 → s.done = false → last = none
  running : s.step ≠ 0 → ∃ m t k old, last = some (m, t, k) ∧ CoreInv old ∧ old.step = 0 ∧
    EvalPoint m t k old s.step.toNat s

/-- CORE is idle with its hardwired ROM and the host presents `start` with message `m`, tweak `t` and key `k`
(R135, R144). The other registers may hold anything. -/
structure Accepts (s : State) (m t k : Block) : Prop where
  rom : s.rom = []
  idle : s.step = 0
  rst : s.ports.rst = false
  start : s.ports.start = true
  message : s.ports.mIn = m
  tweak : s.ports.tIn = t
  key : s.ports.kIn = k

/-- The host holds `rst` low during the next `n` steps (R144). -/
def NoResetFor (n : Nat) (s : State) : Prop := ∀ p ∈ s.inputs.take n, p.rst = false

/-- The registers of R10, each entry of a register file and each byte of `OUT` by itself. -/
inductive Reg where
  | S | F | TK1 | TK2
  | RTK (r : Fin 16)
  | B (i : Fin 8)
  | OUT (a : Fin 128)
  | step | busy | done
deriving DecidableEq, Repr

/-- A register holds the same value in both states. -/
def Reg.same (s t : State) : Reg → Prop
  | .S => t.S = s.S
  | .F => t.F = s.F
  | .TK1 => t.TK1 = s.TK1
  | .TK2 => t.TK2 = s.TK2
  | .RTK r => t.RTK[r] = s.RTK[r]
  | .B i => t.B[i] = s.B[i]
  | .OUT a => t.OUT[a] = s.OUT[a]
  | .step => t.step = s.step
  | .busy => t.busy = s.busy
  | .done => t.done = s.done

/-- From `s` to `t` nothing changes but the registers in `written`: every other register keeps its value, every
word of the ROM reads as before, and the host's inputs are not touched. -/
structure Unchanged (written : Reg → Prop) (s t : State) : Prop where
  registers : ∀ r, ¬ written r → r.same s t
  romWords : ∀ a, Memory.read t.rom a = Memory.read s.rom a
  rom : t.rom = s.rom
  inputs : t.inputs = s.inputs

/-- The op at address `a` of the hardwired control ROM (R69). -/
def romOp (a : Nat) : Option Instr :=
  match Memory.read [] a with
  | none => none
  | some cw =>
    match decodeWord cw with
    | .ok i => some i
    | .error _ => none

end Sys2Proof.Machine
end

