-- ==== Sys2Proof/Certificates/Slice0/Obligations.lean ====
section
/-! DEFINITION. The statements for the provers. Each says which rule of spec/ it formalises; one that rests on a
choice of the model says so and names the log entry. -/

open Sys2Proof Sys2Proof.Machine

/-! ## Encoding -/

/-- Every instruction decodes back from its encoding, with what follows left over (R64 to R67). Every `Instr` is well
formed, so this is over all of them. -/
def Obligations.DecodeUndoesEncode : Prop :=
  ∀ (i : Instr) (rest : List Byte), decode (encode i ++ rest) = .ok (i, rest)

/-- The other direction: what decodes is exactly an encoding, so every word has one meaning (R67, R68). -/
def Obligations.OnlyEncodingsDecode : Prop :=
  ∀ (bytes rest : List Byte) (i : Instr), decode bytes = .ok (i, rest) → bytes = encode i ++ rest

/-- R67's table: a control word `cw` is the op when `cw & mask = match`, and a format-K op's index is `cw[3:0]`. -/
def Obligations.DecodeFollowsMatchAndMask : Prop :=
  ∀ (cw : Byte) (i : Instr),
    decodeWord cw = .ok i ↔
      cw &&& i.maskBits = i.matchBits ∧ ∀ k, i.index = some k → k.val = cw.toNat % 16

/-- R68's division of the 256 control words: 103 defined, 105 reserved by their low nibble, 48 by their `op`. -/
def Obligations.ControlWordsDivideAsTabled : Prop :=
  (∀ cw : Byte,
    (cw.toNat / 16 ∈ [1, 4, 5, 8, 9, 11] → ∃ i, decodeWord cw = .ok i) ∧
    (cw.toNat / 16 ∈ [0, 2, 3, 6, 7, 10, 12] → cw.toNat % 16 = 0 → ∃ i, decodeWord cw = .ok i) ∧
    (cw.toNat / 16 ∈ [0, 2, 3, 6, 7, 10, 12] → cw.toNat % 16 ≠ 0 →
      decodeWord cw = .error (.reservedLowNibble cw)) ∧
    (13 ≤ cw.toNat / 16 → decodeWord cw = .error (.reservedOp cw)) ∧
    (wordDefined cw = true ↔ ∃ i, decodeWord cw = .ok i)) ∧
  ((List.range 256).filter fun n => wordDefined (BitVec.ofNat 8 n)).length = 103 ∧
  ((List.range 256).filter fun n => n / 16 ∈ [0, 2, 3, 6, 7, 10, 12] ∧ n % 16 ≠ 0).length = 105 ∧
  ((List.range 256).filter fun n => 13 ≤ n / 16).length = 48

/-- The decoder vectors of spec/95_test_vectors.md section 3.7. -/
def Obligations.SampleWordsDecode : Prop :=
  decodeWord 0x00 = .ok .wait ∧ decodeWord 0x1c = .ok (.rtk 12) ∧ decodeWord 0x20 = .ok .tkh ∧
  decodeWord 0x30 = .ok .tkg ∧ decodeWord 0x40 = .ok (.xork 0) ∧ decodeWord 0x56 = .ok (.aesr 6) ∧
  decodeWord 0x60 = .ok .aesrz ∧ decodeWord 0x70 = .ok .fork ∧ decodeWord 0x87 = .ok (.bxork 7) ∧
  decodeWord 0x9e = .ok (.baesr 14) ∧ decodeWord 0xa0 = .ok .baesrz ∧ decodeWord 0xbf = .ok (.mask 15) ∧
  decodeWord 0xc0 = .ok .fin ∧ decodeWord 0x3f = .error (.reservedLowNibble 0x3f) ∧
  decodeWord 0xe5 = .error (.reservedOp 0xe5)

/-- The control ROM holds the words R69 tabulates, address by address, and nothing at 69 and above. -/
def Obligations.ControlRomHoldsTabledWords : Prop :=
  Memory.read [] 0 = some 0x00 ∧
  (∀ r : Fin 16, Memory.read [] (1 + 3 * r.val) = some (BitVec.ofNat 8 (0x10 + r.val)) ∧
    Memory.read [] (2 + 3 * r.val) = some 0x20 ∧ Memory.read [] (3 + 3 * r.val) = some 0x30) ∧
  Memory.read [] 49 = some 0x40 ∧
  (∀ n : Fin 6, Memory.read [] (50 + n.val) = some (BitVec.ofNat 8 (0x51 + n.val))) ∧
  Memory.read [] 56 = some 0x60 ∧ Memory.read [] 57 = some 0x70 ∧ Memory.read [] 58 = some 0x87 ∧
  (∀ n : Fin 7, Memory.read [] (59 + n.val) = some (BitVec.ofNat 8 (0x98 + n.val))) ∧
  Memory.read [] 66 = some 0xa0 ∧ Memory.read [] 67 = some 0xbf ∧ Memory.read [] 68 = some 0xc0 ∧
  (∀ a, 69 ≤ a → Memory.read [] a = none)

/-- R73: `SCHED` is the 48 words at addresses 1..48 and `EVAL` is the whole ROM, as listings and as words. -/
def Obligations.PseudoInstructionsExpandToRom : Prop :=
  schedOps.length = 48 ∧ evalOps.length = 69 ∧
  (∀ n, n < 48 → schedOps[n]?.map encodeWord = Memory.read [] (1 + n)) ∧
  (∀ n, evalOps[n]?.map encodeWord = Memory.read [] n)

/-- The model's own (log entry 3): a word placed with `withFetchWord` is what the next step runs. -/
def Obligations.PlacedWordIsRunNext : Prop :=
  ∀ (s : State) (nbits w : Nat) (i : Instr), decodeTableWord nbits w = some i →
    ∃ t, exec i (s.withFetchWord nbits w) = .next t ∧
      step (s.withFetchWord nbits w) = .next { t with inputs := t.inputs.tail }

/-! ## The step -/

/-- A step runs the decoded op (R133, R64): with `rst` low, the word at address `step` is fetched, decoded and
executed, and the host's entry for the step is used up (log entry 1). -/
def Obligations.StepRunsDecodedOp : Prop :=
  ∀ (s : State) (cw : Byte) (i : Instr),
    s.ports.rst = false → Memory.read s.rom s.step.toNat = some cw → decodeWord cw = .ok i →
    ∃ t, exec i s = .next t ∧ step s = .next { t with inputs := s.inputs.tail }

/-- R68, R161: a fetched reserved word and a `step` above 68 are refused; they are not no-ops. The three names the
refusals have, one for each kind, are the model's (log entry 7). -/
def Obligations.StepRefusesReservedAndBeyondRom : Prop :=
  ∀ s : State, s.ports.rst = false →
    (68 < s.step.toNat → step s = .refused (.noControlWord s.step.toNat)) ∧
    (∀ cw, Memory.read s.rom s.step.toNat = some cw →
      (13 ≤ cw.toNat / 16 → step s = .refused (.reservedOp cw)) ∧
      (cw.toNat / 16 ∈ [0, 2, 3, 6, 7, 10, 12] → cw.toNat % 16 ≠ 0 → step s = .refused (.reservedLowNibble cw)))

/-- R180, R163, R182: a step with `rst = 1` gives every register its value of R25 whatever the state, the fetched
op and `start` are, and the next step with `rst = 0` executes `WAIT` at address 0. That the ROM stays and the host's
entry is used up is the model's (log entries 1, 3, 6). -/
def Obligations.ResetStepClearsEverything : Prop :=
  ∀ s : State, s.ports.rst = true →
    ∃ t, step s = .next t ∧ InternalZero t ∧ (∀ a : Fin 128, t.OUT[a] = 0) ∧
      t.step = 0 ∧ t.busy = false ∧ t.done = false ∧ t.rom = s.rom ∧ t.inputs = s.inputs.tail ∧
      (s.rom = [] → t.ports.rst = false →
        ∃ u, exec .wait t = .next u ∧ step t = .next { u with inputs := t.inputs.tail })

/-- R25: the values after reset. -/
def Obligations.ResetValues : Prop :=
  InternalZero State.reset ∧ (∀ a : Fin 128, State.reset.OUT[a] = 0) ∧
  State.reset.step = 0 ∧ State.reset.busy = false ∧ State.reset.done = false

/-- R160: every op completes on every state, and the step function of a well-formed state (`step` in 0..68) answers a
next state. That this state is well formed again is the spec's own inference (R18, "[derived: from rule R25,
30_encoding.md rule R69 and 43_evaluator.md rule R134]"), and that the ROM's contents are a field, empty for the
hardwired ROM, is the model's choice (log entry 3). -/
def Obligations.CoreIsTotal : Prop :=
  (∀ (i : Instr) (s : State), ∃ t, exec i s = .next t) ∧
  (∀ s : State, s.rom = [] → s.step.toNat ≤ 68 → ∃ t, step s = .next t ∧ t.rom = [] ∧ t.step.toNat ≤ 68)

/-- R53: no op and no host action writes the control ROM, so every address reads after a step as before it. -/
def Obligations.NoStepWritesTheRom : Prop :=
  ∀ s t : State, step s = .next t → t.rom = s.rom ∧ ∀ a, Memory.read t.rom a = Memory.read s.rom a

/-- R134: the three ways `step` advances, for every op on every state. -/
def Obligations.StepCounterAdvances : Prop :=
  ∀ (i : Instr) (s : State), ∃ t, exec i s = .next t ∧
    (i = .wait → s.ports.start = true → t.step = 1) ∧
    (i = .wait → s.ports.start = false → t.step = 0) ∧
    (i = .fin → t.step = 0) ∧
    (i ≠ .wait → i ≠ .fin → t.step = s.step + 1)

/-- The writers of the status bits, R19 and R20: an op that changes `busy` or `done` is a `WAIT` that accepts a start,
which leaves `busy = 1` and `done = 0`, or `FIN`, which leaves `busy = 0` and `done = 1`. -/
def Obligations.OnlyWaitAndFinWriteStatus : Prop :=
  ∀ (i : Instr) (s t : State), exec i s = .next t → (t.busy ≠ s.busy ∨ t.done ≠ s.done) →
    (i = .wait ∧ s.ports.start = true ∧ t.busy = true ∧ t.done = false) ∨
    (i = .fin ∧ t.busy = false ∧ t.done = true)

/-- The writers of every data register, R11 to R17. -/
def Obligations.EachRegisterHasItsWriters : Prop :=
  ∀ (i : Instr) (s t : State), exec i s = .next t →
    (t.S ≠ s.S → i = .wait ∨ (∃ k, i = .xork k) ∨ (∃ k, i = .aesr k) ∨ i = .aesrz ∨ i = .fin) ∧
    (t.F ≠ s.F → i = .fork ∨ i = .fin) ∧
    (t.TK1 ≠ s.TK1 → i = .wait ∨ i = .tkh ∨ i = .tkg ∨ i = .fin) ∧
    (t.TK2 ≠ s.TK2 → i = .wait ∨ i = .tkh ∨ i = .fin) ∧
    (∀ r : Fin 16, t.RTK[r] ≠ s.RTK[r] → i = .rtk r ∨ i = .fin) ∧
    (t.B ≠ s.B → i = .fork ∨ (∃ k, i = .bxork k) ∨ (∃ k, i = .baesr k) ∨ i = .baesrz ∨ i = .fin) ∧
    (t.OUT ≠ s.OUT → ∃ k, i = .mask k)

/-- R186, R187: while CORE is busy with its hardwired ROM, nothing the host drives but `rst` matters: two steps under
any two inputs with `rst` low end in the same state, so a `start` is not remembered. -/
def Obligations.BusyIgnoresTheInputPorts : Prop :=
  ∀ (s : State) (p q : HostInput) (ps : List HostInput),
    s.rom = [] → s.step ≠ 0 → s.step.toNat ≤ 68 → p.rst = false → q.rst = false →
    ∃ t, step (s.setInputs (p :: ps)) = .next t ∧ step (s.setInputs (q :: ps)) = .next t

/-- R136, R171: without `start` and `rst` the idle state stays as it is, for any number of steps. -/
def Obligations.IdleStaysIdle : Prop :=
  ∀ (n : Nat) (s : State), s.rom = [] → s.step = 0 →
    (∀ p ∈ s.inputs.take n, p.rst = false ∧ p.start = false) →
    runFor n s = .next { s with inputs := s.inputs.drop n }

/-! ## The ops: completion, result, frame, encoding and place in the ROM -/

/-- R136, `WAIT`. With `start = 1` the three ports are loaded, `busy` set, `done` cleared, `step` 1, whatever the
registers hold (`done = 1` included). With `start = 0` `step` becomes 0 and nothing else changes; at `step = 0` the
whole state stays as it is, whatever the data ports carry. `OUT` is unchanged either way, and no other op looks at the
ports: the outcome of one is the same under any inputs. -/
def Obligations.WaitLoadsOrIdles : Prop :=
  (∀ s : State, s.ports.start = true →
    ∃ t, exec .wait s = .next t ∧ t.S = s.ports.mIn ∧ t.TK1 = s.ports.tIn ∧ t.TK2 = s.ports.kIn ∧
      t.busy = true ∧ t.done = false ∧ t.step = 1 ∧
      Unchanged (fun r => r ∈ [.S, .TK1, .TK2, .busy, .done, .step]) s t) ∧
  (∀ s : State, s.ports.start = false →
    ∃ t, exec .wait s = .next t ∧ t.step = 0 ∧ Unchanged (fun r => r = .step) s t ∧ (s.step = 0 → t = s)) ∧
  (∀ (i : Instr) (s : State) (ps : List HostInput), i ≠ .wait →
    ∃ t, exec i s = .next t ∧ exec i (s.setInputs ps) = .next (t.setInputs ps)) ∧
  encodeWord .wait = 0x00 ∧ (∀ a, romOp a = some .wait ↔ a = 0)

/-- R110, `RTK k`. -/
def Obligations.RtkAssemblesOneTweakey : Prop :=
  (∀ (k : Fin 16) (s : State), ∃ t, exec (.rtk k) s = .next t ∧
      t.RTK[k] = rtkAssemble s.TK1 s.TK2 k ∧ t.step = s.step + 1 ∧
      Unchanged (fun r => r = .RTK k ∨ r = .step) s t ∧
      (s.TK1 = s.TK2 → t.RTK[k] = roundConstantBlock k)) ∧
  (∀ k : Fin 16, encodeWord (.rtk k) = BitVec.ofNat 8 (0x10 + k.val)) ∧
  (∀ (a : Nat) (k : Fin 16), romOp a = some (.rtk k) ↔ a = 1 + 3 * k.val)

/-- R111, `TKH`: byte `i` of each half moves to position `PERM[i]`. -/
def Obligations.TkhPermutesBothHalves : Prop :=
  (∀ s : State, ∃ t, exec .tkh s = .next t ∧
      (∀ i : Fin 16, t.TK1[perm i] = s.TK1[i] ∧ t.TK2[perm i] = s.TK2[i]) ∧ t.step = s.step + 1 ∧
      Unchanged (fun r => r = .TK1 ∨ r = .TK2 ∨ r = .step) s t ∧
      ((∀ i j : Fin 16, s.TK1[i] = s.TK1[j]) → t.TK1 = s.TK1) ∧
      ((∀ i j : Fin 16, s.TK2[i] = s.TK2[j]) → t.TK2 = s.TK2)) ∧
  encodeWord .tkh = 0x20 ∧ (∀ a, romOp a = some .tkh ↔ ∃ r : Fin 16, a = 2 + 3 * r.val)

/-- R112, `TKG`: `G` on every byte of `TK1`; `TK2` and the schedule store are unchanged. -/
def Obligations.TkgStepsFirstHalf : Prop :=
  (∀ s : State, ∃ t, exec .tkg s = .next t ∧
      (∀ j : Fin 16, t.TK1[j] = gLfsr s.TK1[j]) ∧ t.step = s.step + 1 ∧
      Unchanged (fun r => r = .TK1 ∨ r = .step) s t ∧ (s.TK1 = Block.zero → t.TK1 = Block.zero)) ∧
  encodeWord .tkg = 0x30 ∧ (∀ a, romOp a = some .tkg ↔ ∃ r : Fin 16, a = 3 + 3 * r.val)

/-- R90, `XORK k`. -/
def Obligations.XorkAddsTweakeyToTrunk : Prop :=
  (∀ (k : Fin 16) (s : State), ∃ t, exec (.xork k) s = .next t ∧
      (∀ j : Fin 16, t.S[j] = s.S[j] ^^^ s.RTK[k][j]) ∧ t.step = s.step + 1 ∧
      Unchanged (fun r => r = .S ∨ r = .step) s t ∧
      (s.RTK[k] = Block.zero → t.S = s.S) ∧ (∃ u, exec (.xork k) t = .next u ∧ u.S = s.S)) ∧
  (∀ k : Fin 16, encodeWord (.xork k) = BitVec.ofNat 8 (0x40 + k.val)) ∧
  (∀ (a : Nat) (k : Fin 16), romOp a = some (.xork k) ↔ a = 49 ∧ k = 0)

/-- R91, `AESR k`. -/
def Obligations.AesrRunsKeyedTrunkRound : Prop :=
  (∀ (k : Fin 16) (s : State), ∃ t, exec (.aesr k) s = .next t ∧
      t.S = aesRound s.S s.RTK[k] ∧ t.step = s.step + 1 ∧ Unchanged (fun r => r = .S ∨ r = .step) s t) ∧
  (∀ k : Fin 16, encodeWord (.aesr k) = BitVec.ofNat 8 (0x50 + k.val)) ∧
  (∀ (a : Nat) (k : Fin 16), romOp a = some (.aesr k) ↔ 1 ≤ k.val ∧ k.val ≤ 6 ∧ a = 49 + k.val)

/-- R92, `AESRZ`: no entry of the schedule store is read. -/
def Obligations.AesrzRunsZeroKeyTrunkRound : Prop :=
  (∀ s : State, ∃ t, exec .aesrz s = .next t ∧
      t.S = aesRound s.S Block.zero ∧ t.step = s.step + 1 ∧ Unchanged (fun r => r = .S ∨ r = .step) s t ∧
      (∀ w : Vector Block 16, exec .aesrz { s with RTK := w } = .next { t with RTK := w })) ∧
  encodeWord .aesrz = 0x60 ∧ (∀ a, romOp a = some .aesrz ↔ a = 56)

/-- R137, `FORK`: `F` and all eight lanes hold `S`; `S` is unchanged. -/
def Obligations.ForkSeedsAllLanes : Prop :=
  (∀ s : State, ∃ t, exec .fork s = .next t ∧ t.F = s.S ∧ (∀ i : Fin 8, t.B[i] = s.S) ∧ t.step = s.step + 1 ∧
      Unchanged (fun r => r = .F ∨ (∃ i, r = .B i) ∨ r = .step) s t) ∧
  encodeWord .fork = 0x70 ∧ (∀ a, romOp a = some .fork ↔ a = 57)

/-- R138, `BXORK k`, byte by byte, with its corner case: from equal lanes, two lanes differ by
`BC((i + 1) ^ (j + 1))`. -/
def Obligations.BxorkAddsBranchKeys : Prop :=
  (∀ (k : Fin 16) (s : State), ∃ t, exec (.bxork k) s = .next t ∧
      (∀ (i : Fin 8) (j : Fin 16), t.B[i][j] =
        if 8 ≤ j.val ∧ j.val ≤ 11 then s.B[i][j] ^^^ s.RTK[k][j] ^^^ BitVec.ofNat 8 (i.val + 1)
        else s.B[i][j] ^^^ s.RTK[k][j]) ∧
      t.step = s.step + 1 ∧ Unchanged (fun r => (∃ i, r = .B i) ∨ r = .step) s t ∧
      ((∀ i j : Fin 8, s.B[i] = s.B[j]) → ∀ i j : Fin 8,
        Block.xor t.B[i] t.B[j] = branchConstantBlock (BitVec.ofNat 8 (i.val + 1) ^^^ BitVec.ofNat 8 (j.val + 1)))) ∧
  (∀ k : Fin 16, encodeWord (.bxork k) = BitVec.ofNat 8 (0x80 + k.val)) ∧
  (∀ (a : Nat) (k : Fin 16), romOp a = some (.bxork k) ↔ a = 58 ∧ k = 7)

/-- R139, `BAESR k`: each lane by its own old value and the shared `RTK[k]`. -/
def Obligations.BaesrRunsKeyedLaneRounds : Prop :=
  (∀ (k : Fin 16) (s : State), ∃ t, exec (.baesr k) s = .next t ∧
      (∀ i : Fin 8, t.B[i] = aesRound s.B[i] (branchKey s.RTK[k] (BitVec.ofNat 8 (i.val + 1)))) ∧
      t.step = s.step + 1 ∧ Unchanged (fun r => (∃ i, r = .B i) ∨ r = .step) s t) ∧
  (∀ k : Fin 16, encodeWord (.baesr k) = BitVec.ofNat 8 (0x90 + k.val)) ∧
  (∀ (a : Nat) (k : Fin 16), romOp a = some (.baesr k) ↔ 8 ≤ k.val ∧ k.val ≤ 14 ∧ a = 51 + k.val)

/-- R140, `BAESRZ`: no entry of the schedule store is read and no branch constant is applied. -/
def Obligations.BaesrzRunsZeroKeyLaneRounds : Prop :=
  (∀ s : State, ∃ t, exec .baesrz s = .next t ∧
      (∀ i : Fin 8, t.B[i] = aesRound s.B[i] Block.zero) ∧ t.step = s.step + 1 ∧
      Unchanged (fun r => (∃ i, r = .B i) ∨ r = .step) s t ∧
      (∀ w : Vector Block 16, exec .baesrz { s with RTK := w } = .next { t with RTK := w })) ∧
  encodeWord .baesrz = 0xa0 ∧ (∀ a, romOp a = some .baesrz ↔ a = 66)

/-- R141, R42, `MASK k`: byte `j` of lane `i` goes to `OUT[16i + j]`; all 128 bytes are written, so nothing of the old
`OUT` stays; nothing else but `step` changes. -/
def Obligations.MaskWritesAllOfOut : Prop :=
  (∀ (k : Fin 16) (s : State), ∃ t, exec (.mask k) s = .next t ∧
      (∀ (i : Fin 8) (j : Fin 16), t.OUT[16 * i.val + j.val] =
        if 8 ≤ j.val ∧ j.val ≤ 11 then s.B[i][j] ^^^ s.RTK[k][j] ^^^ BitVec.ofNat 8 (i.val + 1) ^^^ s.F[j]
        else s.B[i][j] ^^^ s.RTK[k][j] ^^^ s.F[j]) ∧
      t.step = s.step + 1 ∧ Unchanged (fun r => (∃ a, r = .OUT a) ∨ r = .step) s t ∧
      (∀ old : Vector Byte 128, exec (.mask k) { s with OUT := old } = .next t)) ∧
  (∀ k : Fin 16, encodeWord (.mask k) = BitVec.ofNat 8 (0xb0 + k.val)) ∧
  (∀ (a : Nat) (k : Fin 16), romOp a = some (.mask k) ↔ a = 67 ∧ k = 15)

/-- R142, `FIN`: the internal data registers are cleared, `OUT` is kept, `busy` 0, `done` 1, `step` 0. -/
def Obligations.FinClearsAndReports : Prop :=
  (∀ s : State, ∃ t, exec .fin s = .next t ∧ InternalZero t ∧ t.busy = false ∧ t.done = true ∧ t.step = 0 ∧
      Unchanged (fun r => ¬ ∃ a, r = .OUT a) s t) ∧
  encodeWord .fin = 0xc0 ∧ (∀ a, romOp a = some .fin ↔ a = 68)

/-- R143: lane `i` of a lane op computes from `B[i]`, the shared `RTK[k]`, the shared `F` (for `MASK`) and its own
constant, and from nothing else: states that agree on those agree on the lane's result. -/
def Obligations.LanesDoNotInteract : Prop :=
  ∀ (k : Fin 16) (i : Fin 8) (s s' : State), s.B[i] = s'.B[i] → s.RTK[k] = s'.RTK[k] →
    (∃ t t', exec (.bxork k) s = .next t ∧ exec (.bxork k) s' = .next t' ∧ t.B[i] = t'.B[i]) ∧
    (∃ t t', exec (.baesr k) s = .next t ∧ exec (.baesr k) s' = .next t' ∧ t.B[i] = t'.B[i]) ∧
    (∃ t t', exec .baesrz s = .next t ∧ exec .baesrz s' = .next t' ∧ t.B[i] = t'.B[i]) ∧
    (s.F = s'.F → ∃ t t', exec (.mask k) s = .next t ∧ exec (.mask k) s' = .next t' ∧
      ∀ j : Fin 16, t.OUT[16 * i.val + j.val] = t'.OUT[16 * i.val + j.val])

/-! ## The functions -/

/-- R81: `sub_bytes` byte by byte; the table is the one the formula generates from inverses in GF(2^8), and it is a
permutation of the bytes. The S-box is from general knowledge (log entry 9). -/
def Obligations.SboxIsTheGeneratedPermutation : Prop :=
  (∀ (X : Block) (j : Fin 16), (subBytes X)[j] = sbox X[j]) ∧
  (∃ inv : Byte → Byte, inv 0 = 0 ∧ (∀ a, a ≠ 0 → gfMul a (inv a) = 1) ∧ ∀ a, sbox a = sboxAffine (inv a)) ∧
  Function.Bijective sbox

/-- R82: `xtime` and the multipliers 1, 2 and 3. -/
def Obligations.GfMultipliers : Prop :=
  ∀ a : Byte, (a.getLsbD 7 = true → xtime a = (a <<< 1) ^^^ 0x1b) ∧ (a.getLsbD 7 = false → xtime a = a <<< 1) ∧
    gfMul 1 a = a ∧ gfMul 2 a = xtime a ∧ gfMul 3 a = xtime a ^^^ a

/-- R83: row `r` is rotated left by `r` columns, and the gather table `SR`. -/
def Obligations.ShiftRowsRotatesRows : Prop :=
  (∀ (X : Block) (c r : Fin 4), (shiftRows X)[4 * c.val + r.val] = X[4 * ((c.val + r.val) % 4) + r.val]) ∧
  (∀ (X : Block) (j : Fin 16), (shiftRows X)[j] =
    X[(#v[0, 5, 10, 15, 4, 9, 14, 3, 8, 13, 2, 7, 12, 1, 6, 11] : Vector (Fin 16) 16)[j]])

/-- R84: each column by the four lines of the rule; a column of four equal bytes is a fixed point. -/
def Obligations.MixColumnsByColumn : Prop :=
  ∀ (X : Block) (c : Fin 4),
    (mixColumns X)[4 * c.val] =
      gfMul 2 X[4 * c.val] ^^^ gfMul 3 X[4 * c.val + 1] ^^^ X[4 * c.val + 2] ^^^ X[4 * c.val + 3] ∧
    (mixColumns X)[4 * c.val + 1] =
      X[4 * c.val] ^^^ gfMul 2 X[4 * c.val + 1] ^^^ gfMul 3 X[4 * c.val + 2] ^^^ X[4 * c.val + 3] ∧
    (mixColumns X)[4 * c.val + 2] =
      X[4 * c.val] ^^^ X[4 * c.val + 1] ^^^ gfMul 2 X[4 * c.val + 2] ^^^ gfMul 3 X[4 * c.val + 3] ∧
    (mixColumns X)[4 * c.val + 3] =
      gfMul 3 X[4 * c.val] ^^^ X[4 * c.val + 1] ^^^ X[4 * c.val + 2] ^^^ gfMul 2 X[4 * c.val + 3] ∧
    ((∀ r : Fin 4, X[4 * c.val + r.val] = X[4 * c.val]) →
      ∀ r : Fin 4, (mixColumns X)[4 * c.val + r.val] = X[4 * c.val + r.val])

/-- R85, R86, R88: the composition, byte by byte from the argument; `sub_bytes` and `shift_rows` commute; with the
key `ZERO` the round is the three layers alone. The last two clauses are the spec's own inferences ("[derived: from
rules R81 and R83]", "[derived: from rules R85 and R86]"). -/
def Obligations.AesRoundComposesItsLayers : Prop :=
  (∀ (X K : Block) (j : Fin 16),
    (addRoundKey X K)[j] = X[j] ^^^ K[j] ∧
    (aesRound X K)[j] = (mixColumns (shiftRows (subBytes X)))[j] ^^^ K[j]) ∧
  (∀ X : Block, subBytes (shiftRows X) = shiftRows (subBytes X)) ∧
  (∀ X : Block, aesRound X Block.zero = mixColumns (shiftRows (subBytes X)))

/-- R89: `aes_round` is a bijection in the state and in the key, two keys shift the result by their difference, and
the two constant values. The spec's own inference ("[derived: from rules R81 to R86]"). -/
def Obligations.AesRoundIsBijective : Prop :=
  (∀ K : Block, Function.Bijective fun X => aesRound X K) ∧
  (∀ X : Block, Function.Bijective fun K => aesRound X K) ∧
  (∀ X K K' : Block, Block.xor (aesRound X K) (aesRound X K') = Block.xor K K') ∧
  (∀ j : Fin 16, (aesRound Block.zero Block.zero)[j] = 0x63) ∧
  (∀ j : Fin 16, (aesRound (Vector.replicate 16 0xff) Block.zero)[j] = 0x16)

/-- R61, R62, R102, R108: the constants `C0` and `RCON`, the four lines of `rtk_assemble`, its form as one XOR, and the
first round tweakey. The form as one XOR is the spec's own inference ("[derived: from the four lines above]"). -/
def Obligations.RtkAssembleByColumn : Prop :=
  c0 = #v[0x01, 0x02, 0x04, 0x08] ∧
  (∀ r : Fin 16, rcon r = (#v[0x2f, 0x5e, 0xbc, 0x63, 0xc6, 0x97, 0x35, 0x6a, 0xd4, 0xb3, 0x7d, 0xfa, 0xef, 0xc5, 0x91,
    0x39] : Vector Byte 16)[r]) ∧
  (∀ (T1 T2 : Block) (r : Fin 16),
    (∀ row : Fin 4,
      (rtkAssemble T1 T2 r)[row.val] = T1[row.val] ^^^ T2[row.val] ^^^ c0[row] ∧
      (rtkAssemble T1 T2 r)[4 + row.val] = T1[4 + row.val] ^^^ T2[4 + row.val] ^^^ rcon r ∧
      (rtkAssemble T1 T2 r)[8 + row.val] = T1[8 + row.val] ^^^ T2[8 + row.val] ∧
      (rtkAssemble T1 T2 r)[12 + row.val] = T1[12 + row.val] ^^^ T2[12 + row.val]) ∧
    rtkAssemble T1 T2 r = Block.xor (Block.xor T1 T2) (roundConstantBlock r)) ∧
  (∀ tweak key : Block, (schedule tweak key)[0] = Block.xor (Block.xor tweak key)
    #v[0x01, 0x02, 0x04, 0x08, 0x2f, 0x2f, 0x2f, 0x2f, 0, 0, 0, 0, 0, 0, 0, 0])

/-- R103, R63: byte `i` moves to position `PERM[i]`, a permutation with inverse `PERMINV`; applied eight times `h_perm`
is the identity, and four times it swaps the halves (the spec's own inference, "[derived: by computing the powers of
`PERM`]"). The source's vector does not test this (log entry 10). -/
def Obligations.HPermScattersBytes : Prop :=
  (∀ i : Fin 16, perm i = (#v[1, 6, 11, 12, 5, 10, 15, 0, 9, 14, 3, 4, 13, 2, 7, 8] : Vector (Fin 16) 16)[i] ∧
    permInv i = (#v[7, 0, 13, 10, 11, 4, 1, 14, 15, 8, 5, 2, 3, 12, 9, 6] : Vector (Fin 16) 16)[i]) ∧
  (∀ (T : Block) (i : Fin 16), (hPerm T)[perm i] = T[i] ∧ (hPerm T)[i] = T[permInv i]) ∧
  Function.Bijective perm ∧ (∀ i : Fin 16, permInv (perm i) = i) ∧
  (∀ T : Block, hPerm^[8] T = T) ∧
  (∀ (T : Block) (j : Fin 8), (hPerm^[4] T)[j.val] = T[8 + j.val] ∧ (hPerm^[4] T)[8 + j.val] = T[j.val])

/-- R104: result bits 7..1 are `b[6:0]`, result bit 0 is `b[5] ^ b[7]`; linear, a bijection, zero its only fixed
point; and the corner cases. Linearity and the bijection are the spec's own inference ("[derived: from the bit form]"). -/
def Obligations.GLfsrBits : Prop :=
  (∀ b : Byte, (gLfsr b).getLsbD 0 = xor (b.getLsbD 5) (b.getLsbD 7) ∧
    (∀ i, i < 7 → (gLfsr b).getLsbD (i + 1) = b.getLsbD i) ∧ (gLfsr b = b ↔ b = 0)) ∧
  (∀ a b : Byte, gLfsr (a ^^^ b) = gLfsr a ^^^ gLfsr b) ∧ Function.Bijective gLfsr ∧
  gLfsr 0x01 = 0x02 ∧ gLfsr 0x20 = 0x41 ∧ gLfsr 0x80 = 0x01 ∧ gLfsr 0xa0 = 0x40 ∧ gLfsr 0x7f = 0xff ∧
  gLfsr 0xff = 0xfe

/-- R107: the closed form of the schedule and the period of the key's contribution; and from R106, `h_perm` and
`g_block` commute. The spec's own inferences ("[derived: from rules R102 to R106]", "[derived: from rule R103]",
"[derived: from rules R103 and R105]"). -/
def Obligations.ScheduleClosedForm : Prop :=
  (∀ T : Block, gBlock (hPerm T) = hPerm (gBlock T)) ∧
  (∀ (tweak key : Block) (r : Fin 16), (schedule tweak key)[r] =
    Block.xor (Block.xor (gBlock^[r.val] (hPerm^[r.val] tweak)) (hPerm^[r.val] key)) (roundConstantBlock r)) ∧
  (∀ (tweak key key' : Block) (r : Fin 8),
    Block.xor (schedule tweak key)[8 + r.val] (schedule tweak key')[8 + r.val] =
    Block.xor (schedule tweak key)[r.val] (schedule tweak key')[r.val])

/-- R120, R121, R124: `branch_key` XORs `c` into column 2 and keeps the rest; the lanes' constants are 1..8; no two
lanes use the same key and no lane the unmodified round tweakey. R124 is the spec's own inference ("[derived: from
rules R120 and R121]"). -/
def Obligations.BranchKeysDifferByLane : Prop :=
  (∀ (K : Block) (c : Byte), (∀ row : Fin 4, (branchKey K c)[8 + row.val] = K[8 + row.val] ^^^ c) ∧
    (∀ j : Fin 16, (j.val < 8 ∨ 11 < j.val) → (branchKey K c)[j] = K[j]) ∧
    branchKey K c = Block.xor K (branchConstantBlock c) ∧ branchKey (branchKey K c) c = K ∧ branchKey K 0 = K) ∧
  (∀ i : Fin 8, (branchConstant i).toNat = i.val + 1) ∧
  (∀ (K : Block) (i j : Fin 8),
    Block.xor (branchKey K (branchConstant i)) (branchKey K (branchConstant j)) =
      branchConstantBlock (branchConstant i ^^^ branchConstant j) ∧
    (i ≠ j → branchKey K (branchConstant i) ≠ branchKey K (branchConstant j)) ∧
    branchKey K (branchConstant i) ≠ K) ∧
  (∀ (K1 K2 : Block) (c : Byte), branchKey (Block.xor K1 K2) c = Block.xor (branchKey K1 c) K2)

/-- spec/90_conflicts.md C4, spec/93_implementation_defined.md U7: for a fixed tweak and key, message to fork state is a
bijection, and for each lane fork state to branch state is one. Nothing more is claimed of the outputs. -/
def Obligations.TrunkAndBranchesAreBijective : Prop :=
  ∀ tweak key : Block,
    Function.Bijective (fun message => forkState message (schedule tweak key)) ∧
    ∀ i : Fin 8, Function.Bijective (fun fork => branchState fork (schedule tweak key) i)

/-- R45: byte `j` of a port at bits `[8j+7 : 8j]`, and the packing loses nothing. -/
def Obligations.PortsPackLowByteFirst : Prop :=
  (∀ (X : Block) (j : Fin 16) (b : Nat), b < 8 → (packBlock X).getLsbD (8 * j.val + b) = X[j].getLsbD b) ∧
  (∀ X : Block, unpackBlock (packBlock X) = X) ∧ (∀ v : BitVec 128, packBlock (unpackBlock v) = v) ∧
  (∀ (o : Vector Byte 128) (a : Fin 128) (b : Nat), b < 8 → (packOut o).getLsbD (8 * a.val + b) = o[a].getLsbD b)

/-! ## The whole machine -/

/-- Both invariants hold after reset, under any host; nothing has been accepted. -/
def Obligations.InvariantAtLaunch : Prop := ∀ s : State, Launch s → CoreInv s ∧ LastInv s none

/-- From every state with the invariant, a step answers a next state and the invariant holds there (R18, R19, R20, R26,
R53, R160). The clause on the idle state is R26, the spec's own inference ("[derived: from rule R25 and 43_evaluator.md
rules R134, R136, R142]"). -/
def Obligations.InvariantKeptByEveryStep : Prop := ∀ s : State, CoreInv s → ∃ t, step s = .next t ∧ CoreInv t

/-- R144: an accepted evaluation ends after exactly 69 steps with `OUT = eval(m, t, k)`, `done = 1` and the internal
registers `ZERO`, and is busy in between; whatever the registers held before, and whatever the host drives but
`rst`. The hypothesis `Accepts` asks less than R144's "reachable". R144 is the spec's own inference ("[derived: from
rules R130, R133 to R142 and 30_encoding.md rule R69"). That inputs are used up one a step is log entry 1. -/
def Obligations.EvaluationGivesEval : Prop :=
  ∀ (s : State) (m t k : Block), Accepts s m t k → NoResetFor 69 s →
    (∃ u, runFor 69 s = .next u ∧ u.step = 0 ∧ u.busy = false ∧ u.done = true ∧ u.OUT = eval m t k ∧
      InternalZero u ∧ u.rom = [] ∧ u.inputs = s.inputs.drop 69) ∧
    (∀ n, 1 ≤ n → n ≤ 68 → ∃ v, runFor n s = .next v ∧ v.busy = true)

/-- R190, R189, R188, R15, R131: at every point of an evaluation, `n` steps after it began, every register of R10 holds
what R69's order and R130 say, whatever the registers held before and whatever the host drives but `rst`: `EvalPoint`
says it of the data registers, each address of the ROM told apart; `OUT` is the old one until `MASK`. -/
def Obligations.EvaluationPassesEachAddress : Prop :=
  ∀ (s : State) (m t k : Block) (n : Nat), Accepts s m t k → 1 ≤ n → n ≤ 68 → NoResetFor n s →
    ∃ v, runFor n s = .next v ∧ v.step.toNat = n ∧ v.busy = true ∧ v.done = false ∧ v.rom = [] ∧
      v.inputs = s.inputs.drop n ∧ EvalPoint m t k s n v

/-- R20, R26, as a lemma about one step: from every state `s` and `last` that meet `LastInv`, reachable or not, a step
answers a next state, and that state with the inputs most recently accepted after the step meets `LastInv` again; so
every state that a run from reset reaches does, under any host. `LastInv` says that `done = 1` means that `OUT` is the
complete result of `last`, that idle with `done = 0` means that nothing has been accepted since reset, and at every
`step` from 1 to 68 what the data registers hold of the evaluation of `last`. The idle state's part is R26, the spec's
own inference ("[derived: from rule R25 and 43_evaluator.md rules R134, R136, R142]"). -/
def Obligations.DoneMeansLastResult : Prop :=
  (∀ (s : State) (last : Option (Block × Block × Block)), LastInv s last →
    ∃ t, step s = .next t ∧ LastInv t (lastAfterStep s last)) ∧
  (∀ (s : State) (last : Option (Block × Block × Block)), ReachableWith s last → LastInv s last)

/-- R24, R27, R184: the result of an evaluation depends only on the three inputs sampled at its start, never on what the
registers held before: two evaluations of the same inputs end in the same registers. -/
def Obligations.EvaluationForgetsOldState : Prop :=
  ∀ (s s' : State) (m t k : Block), Accepts s m t k → NoResetFor 69 s → Accepts s' m t k → NoResetFor 69 s' →
    ∃ u u', runFor 69 s = .next u ∧ runFor 69 s' = .next u' ∧ { u with inputs := [] } = { u' with inputs := [] }

/-- R166, R190: until the `MASK` step the host's view does not depend on the message, tweak and key: two evaluations of
any inputs from states with the same `OUT` show the same `out`, `busy` and `done` after each of the first 67 steps. -/
def Obligations.ViewHidesDataUntilMask : Prop :=
  ∀ (s s' : State) (m t k m' t' k' : Block) (n : Nat), Accepts s m t k → Accepts s' m' t' k' → s.OUT = s'.OUT →
    1 ≤ n → n ≤ 67 → NoResetFor n s → NoResetFor n s' →
    ∃ u u', runFor n s = .next u ∧ runFor n s' = .next u' ∧ u.view = u'.view

/-- R170, R55: N instances under any interleaving. Where each one's own run answers, the interleaving answers and each
instance ends where it ends alone after as many steps as the interleaving gives it; one that accepts `m`, `t`, `k` and
is given 69 steps with `rst` low ends with R144's result. And instances that meet the invariant always answer and keep
it. That the instances are a list of states and an interleaving a list of numbers is the model's choice (log entry
14). -/
def Obligations.InstancesDoNotInteract : Prop :=
  (∀ (order : List Nat) (ms : List State), (∀ n ∈ order, n < ms.length) →
    (∀ (n : Nat) (s : State), ms[n]? = some s → ∃ u, runFor (order.count n) s = .next u) →
    ∃ ms', runInterleaved order ms = some ms' ∧ ms'.length = ms.length ∧
      ∀ (n : Nat) (s : State), ms[n]? = some s →
        ∃ u, ms'[n]? = some u ∧ runFor (order.count n) s = .next u ∧
          ∀ m t k : Block, Accepts s m t k → NoResetFor 69 s → order.count n = 69 →
            u.step = 0 ∧ u.busy = false ∧ u.done = true ∧ u.OUT = eval m t k ∧ InternalZero u) ∧
  (∀ (order : List Nat) (ms : List State), (∀ n ∈ order, n < ms.length) → (∀ s ∈ ms, CoreInv s) →
    ∃ ms', runInterleaved order ms = some ms' ∧ ms'.length = ms.length ∧ ∀ s ∈ ms', CoreInv s)

/-- R145: the applications made in the 69 steps of an evaluation, whatever the data. They are counted by a second
writing of the ops over counting functions, whose result without the count is `exec` on every op and state, and whose
count depends on the op alone; what counts as one application is the model's choice (log entry 16). R145 is the spec's
own inference ("[derived: from 30_encoding.md rule R69]"). -/
def Obligations.EvaluationCounts : Prop :=
  (∀ (i : Instr) (s : State), (execCounted i s).value = exec i s) ∧
  (∀ (i : Instr) (s s' : State), (execCounted i s).counts = (execCounted i s').counts) ∧
  (∀ (k : Fin 16) (s : State), (execCounted (.bxork k) s).counts = { keyXorLanes := 8 } ∧
    (execCounted (.mask k) s).counts = { keyXorLanes := 8 }) ∧
  (∀ (s : State) (m t k : Block), Accepts s m t k → NoResetFor 69 s →
    runCounts 69 s = { aesRoundS := 7, aesRoundLanes := 64, keyXorS := 1, keyXorLanes := 16, rtkAssemble := 16,
                       hPermTK1 := 16, hPermTK2 := 16, gBlock := 16 })
end

