-- ==== Sys2Proof/Laws/Counts.lean ====
section
/-! SUPPORT. The small lemmas of counted values. -/

namespace Sys2Proof.Machine

variable {α β : Type}

@[simp] theorem Counts.add_none (a : Counts) : a.add Counts.none = a := rfl

@[simp] theorem Counts.none_add (a : Counts) : Counts.none.add a = a := by
  cases a
  simp [Counts.add, Counts.none]

theorem Counts.add_assoc (a b c : Counts) : (a.add b).add c = a.add (b.add c) := by
  simp [Counts.add, Nat.add_assoc]

@[simp] theorem Counted.bind_value (x : Counted α) (f : α → Counted β) : (x.bind f).value = (f x.value).value := rfl

@[simp] theorem Counted.bind_counts (x : Counted α) (f : α → Counted β) :
    (x.bind f).counts = x.counts.add (f x.value).counts := rfl

@[simp] theorem Counted.map_value (f : α → β) (x : Counted α) : (x.map f).value = f x.value := rfl

@[simp] theorem Counted.map_counts (f : α → β) (x : Counted α) : (x.map f).counts = x.counts := rfl

@[simp] theorem countedLanes_value (f : Fin 8 → Counted Block) (i : Fin 8) :
    (countedLanes f).value i = (f i).value := rfl

/-- Where every lane makes the same applications, all eight make them. -/
theorem countedLanes_counts {f g : Fin 8 → Counted Block} (h : ∀ i, (f i).counts = (g i).counts) :
    (countedLanes f).counts = (countedLanes g).counts := by
  simp [countedLanes, h]

/-- The applications of a run are those of its first step and those of the rest. -/
theorem runCounts_succ {s t : State} (n : Nat) (h : step s = .next t) :
    runCounts (n + 1) s = (stepCounts s).add (runCounts n t) := by
  rw [runCounts, h]

end Sys2Proof.Machine
end

