-- ==== Sys2Proof/Laws/Eval.lean ====
section
/-! SUPPORT. What the registers hold at each address of an evaluation, one lemma for each op that moves it on. -/

namespace Sys2Proof.Machine

variable {tweak key message fork : Block} {rtk : Vector Block 16}

/-! ## `TK1` and `TK2` -/

/-- Before `RTK r`, and at address 49 after the last `TKG`, the halves are round `r`'s. -/
theorem tweakeyHalvesAt_rtk (r : Nat) (h : r ≤ 16) :
    tweakeyHalvesAt tweak key (1 + 3 * r) = tweakeyHalves tweak key r := by
  have hj : min (1 + 3 * r - 1) 48 = 3 * r := by omega
  have hd : 3 * r / 3 = r := by omega
  have hm : 3 * r % 3 = 0 := by omega
  simp only [tweakeyHalvesAt, hj, hd, hm, reduceIte, OfNat.zero_ne_ofNat]

/-- Before `TKH` of round `r` the halves are still round `r`'s. -/
theorem tweakeyHalvesAt_tkh (r : Nat) (h : r < 16) :
    tweakeyHalvesAt tweak key (2 + 3 * r) = tweakeyHalves tweak key r := by
  have hj : min (2 + 3 * r - 1) 48 = 3 * r + 1 := by omega
  have hd : (3 * r + 1) / 3 = r := by omega
  have hm : (3 * r + 1) % 3 = 1 := by omega
  simp only [tweakeyHalvesAt, hj, hd, hm, reduceIte, OfNat.one_ne_ofNat]

/-- Before `TKG` of round `r` both halves are permuted. -/
theorem tweakeyHalvesAt_tkg (r : Nat) (h : r < 16) : tweakeyHalvesAt tweak key (3 + 3 * r) =
    (hPerm (tweakeyHalves tweak key r).1, hPerm (tweakeyHalves tweak key r).2) := by
  have hj : min (3 + 3 * r - 1) 48 = 3 * r + 2 := by omega
  have hd : (3 * r + 2) / 3 = r := by omega
  have hm : (3 * r + 2) % 3 = 2 := by omega
  simp only [tweakeyHalvesAt, hj, hd, hm, reduceIte]

/-- From address 49 on no op moves the halves. -/
theorem tweakeyHalvesAt_after {n : Nat} (h : 49 ≤ n) : tweakeyHalvesAt tweak key n = tweakeyHalves tweak key 16 := by
  have hj : min (n - 1) 48 = 48 := by omega
  simp [tweakeyHalvesAt, hj]

/-! ## `S` -/

/-- As far as address 49 `S` is the message. -/
theorem trunkAt_message {n : Nat} (h : n ≤ 49) : trunkAt message rtk n = message := by simp [trunkAt, h]

/-- `XORK 0` whitens. -/
theorem trunkAt_whitened : trunkAt message rtk 50 = Block.xor message rtk[0] := rfl

/-- `AESR k`, `k` in 1..6, at address `49 + k`. -/
theorem trunkAt_round (k : Fin 16) (h1 : 1 ≤ k.val) (h6 : k.val ≤ 6) :
    trunkAt message rtk (50 + k.val) = aesRound (trunkAt message rtk (49 + k.val)) rtk[k] := by
  have h : k = 1 ∨ k = 2 ∨ k = 3 ∨ k = 4 ∨ k = 5 ∨ k = 6 := by omega
  rcases h with rfl | rfl | rfl | rfl | rfl | rfl <;> rfl

/-- `AESRZ` at address 56 closes the trunk. -/
theorem trunkAt_closing : trunkAt message rtk 57 = aesRound (trunkAt message rtk 56) Block.zero := rfl

/-- From 57 on `S` is the fork state. -/
theorem trunkAt_fork {n : Nat} (h : 57 ≤ n) : trunkAt message rtk n = forkState message rtk := by
  have h1 : ¬ n ≤ 49 := by omega
  have h2 : ¬ n ≤ 56 := by omega
  simp [trunkAt, h1, h2]

/-! ## `B[i]` -/

/-- `FORK` seeds the lane. -/
theorem laneAt_seeded (i : Fin 8) : laneAt fork rtk i 58 = fork := rfl

/-- `BXORK 7` whitens the lane with its own key. -/
theorem laneAt_whitened (i : Fin 8) :
    laneAt fork rtk i 59 = Block.xor fork (branchKey rtk[7] (branchConstant i)) := rfl

/-- `BAESR k`, `k` in 8..14, at address `51 + k`. -/
theorem laneAt_round (i : Fin 8) (k : Fin 16) (h8 : 8 ≤ k.val) (h14 : k.val ≤ 14) : laneAt fork rtk i (52 + k.val) =
    aesRound (laneAt fork rtk i (51 + k.val)) (branchKey rtk[k] (branchConstant i)) := by
  have h : k = 8 ∨ k = 9 ∨ k = 10 ∨ k = 11 ∨ k = 12 ∨ k = 13 ∨ k = 14 := by omega
  rcases h with rfl | rfl | rfl | rfl | rfl | rfl | rfl <;> rfl

/-- `BAESRZ` at address 66 closes the lane. -/
theorem laneAt_closing (i : Fin 8) : laneAt fork rtk i 67 = aesRound (laneAt fork rtk i 66) Block.zero := rfl

/-- From 67 on the lane is the branch state. -/
theorem laneAt_branch (i : Fin 8) {n : Nat} (h : 67 ≤ n) : laneAt fork rtk i n = branchState fork rtk i := by
  have h1 : ¬ n ≤ 58 := by omega
  have h2 : ¬ n ≤ 66 := by omega
  simp [laneAt, h1, h2]

/-! ## `OUT` -/

/-- Byte `j` of slot `i` of `eval` is byte `j` of lane `i`'s output (R130 step 9). -/
theorem eval_slot (message tweak key : Block) (i : Fin 8) (j : Fin 16) :
    (eval message tweak key)[16 * i.val + j.val] = (outputLane message tweak key i)[j] := by
  have hi : (16 * i.val + j.val) / 16 = i.val := by omega
  have hj : (16 * i.val + j.val) % 16 = j.val := by omega
  have hi8 : i.val % 8 = i.val := by omega
  simp [eval, Fin.ofNat, hi, hj, hi8]

end Sys2Proof.Machine
end

