-- ==== Sys2Proof/Laws/State.lean ====
section
/-! SUPPORT. What each update of the state does to each field of State: one lemma for each field of each update, and
the same for the state after reset. -/

namespace Sys2Proof.Machine

variable (s : State)

/-! `State.setS` -/

@[simp] theorem State.setS_S (v : Block) : (s.setS v).S = v := rfl
@[simp] theorem State.setS_F (v : Block) : (s.setS v).F = s.F := rfl
@[simp] theorem State.setS_TK1 (v : Block) : (s.setS v).TK1 = s.TK1 := rfl
@[simp] theorem State.setS_TK2 (v : Block) : (s.setS v).TK2 = s.TK2 := rfl
@[simp] theorem State.setS_RTK (v : Block) : (s.setS v).RTK = s.RTK := rfl
@[simp] theorem State.setS_B (v : Block) : (s.setS v).B = s.B := rfl
@[simp] theorem State.setS_OUT (v : Block) : (s.setS v).OUT = s.OUT := rfl
@[simp] theorem State.setS_step (v : Block) : (s.setS v).step = s.step := rfl
@[simp] theorem State.setS_busy (v : Block) : (s.setS v).busy = s.busy := rfl
@[simp] theorem State.setS_done (v : Block) : (s.setS v).done = s.done := rfl
@[simp] theorem State.setS_rom (v : Block) : (s.setS v).rom = s.rom := rfl
@[simp] theorem State.setS_inputs (v : Block) : (s.setS v).inputs = s.inputs := rfl

/-! `State.setF` -/

@[simp] theorem State.setF_S (v : Block) : (s.setF v).S = s.S := rfl
@[simp] theorem State.setF_F (v : Block) : (s.setF v).F = v := rfl
@[simp] theorem State.setF_TK1 (v : Block) : (s.setF v).TK1 = s.TK1 := rfl
@[simp] theorem State.setF_TK2 (v : Block) : (s.setF v).TK2 = s.TK2 := rfl
@[simp] theorem State.setF_RTK (v : Block) : (s.setF v).RTK = s.RTK := rfl
@[simp] theorem State.setF_B (v : Block) : (s.setF v).B = s.B := rfl
@[simp] theorem State.setF_OUT (v : Block) : (s.setF v).OUT = s.OUT := rfl
@[simp] theorem State.setF_step (v : Block) : (s.setF v).step = s.step := rfl
@[simp] theorem State.setF_busy (v : Block) : (s.setF v).busy = s.busy := rfl
@[simp] theorem State.setF_done (v : Block) : (s.setF v).done = s.done := rfl
@[simp] theorem State.setF_rom (v : Block) : (s.setF v).rom = s.rom := rfl
@[simp] theorem State.setF_inputs (v : Block) : (s.setF v).inputs = s.inputs := rfl

/-! `State.setTK1` -/

@[simp] theorem State.setTK1_S (v : Block) : (s.setTK1 v).S = s.S := rfl
@[simp] theorem State.setTK1_F (v : Block) : (s.setTK1 v).F = s.F := rfl
@[simp] theorem State.setTK1_TK1 (v : Block) : (s.setTK1 v).TK1 = v := rfl
@[simp] theorem State.setTK1_TK2 (v : Block) : (s.setTK1 v).TK2 = s.TK2 := rfl
@[simp] theorem State.setTK1_RTK (v : Block) : (s.setTK1 v).RTK = s.RTK := rfl
@[simp] theorem State.setTK1_B (v : Block) : (s.setTK1 v).B = s.B := rfl
@[simp] theorem State.setTK1_OUT (v : Block) : (s.setTK1 v).OUT = s.OUT := rfl
@[simp] theorem State.setTK1_step (v : Block) : (s.setTK1 v).step = s.step := rfl
@[simp] theorem State.setTK1_busy (v : Block) : (s.setTK1 v).busy = s.busy := rfl
@[simp] theorem State.setTK1_done (v : Block) : (s.setTK1 v).done = s.done := rfl
@[simp] theorem State.setTK1_rom (v : Block) : (s.setTK1 v).rom = s.rom := rfl
@[simp] theorem State.setTK1_inputs (v : Block) : (s.setTK1 v).inputs = s.inputs := rfl

/-! `State.setTK2` -/

@[simp] theorem State.setTK2_S (v : Block) : (s.setTK2 v).S = s.S := rfl
@[simp] theorem State.setTK2_F (v : Block) : (s.setTK2 v).F = s.F := rfl
@[simp] theorem State.setTK2_TK1 (v : Block) : (s.setTK2 v).TK1 = s.TK1 := rfl
@[simp] theorem State.setTK2_TK2 (v : Block) : (s.setTK2 v).TK2 = v := rfl
@[simp] theorem State.setTK2_RTK (v : Block) : (s.setTK2 v).RTK = s.RTK := rfl
@[simp] theorem State.setTK2_B (v : Block) : (s.setTK2 v).B = s.B := rfl
@[simp] theorem State.setTK2_OUT (v : Block) : (s.setTK2 v).OUT = s.OUT := rfl
@[simp] theorem State.setTK2_step (v : Block) : (s.setTK2 v).step = s.step := rfl
@[simp] theorem State.setTK2_busy (v : Block) : (s.setTK2 v).busy = s.busy := rfl
@[simp] theorem State.setTK2_done (v : Block) : (s.setTK2 v).done = s.done := rfl
@[simp] theorem State.setTK2_rom (v : Block) : (s.setTK2 v).rom = s.rom := rfl
@[simp] theorem State.setTK2_inputs (v : Block) : (s.setTK2 v).inputs = s.inputs := rfl

/-! `State.setRTK` -/

@[simp] theorem State.setRTK_S (v : Vector Block 16) : (s.setRTK v).S = s.S := rfl
@[simp] theorem State.setRTK_F (v : Vector Block 16) : (s.setRTK v).F = s.F := rfl
@[simp] theorem State.setRTK_TK1 (v : Vector Block 16) : (s.setRTK v).TK1 = s.TK1 := rfl
@[simp] theorem State.setRTK_TK2 (v : Vector Block 16) : (s.setRTK v).TK2 = s.TK2 := rfl
@[simp] theorem State.setRTK_RTK (v : Vector Block 16) : (s.setRTK v).RTK = v := rfl
@[simp] theorem State.setRTK_B (v : Vector Block 16) : (s.setRTK v).B = s.B := rfl
@[simp] theorem State.setRTK_OUT (v : Vector Block 16) : (s.setRTK v).OUT = s.OUT := rfl
@[simp] theorem State.setRTK_step (v : Vector Block 16) : (s.setRTK v).step = s.step := rfl
@[simp] theorem State.setRTK_busy (v : Vector Block 16) : (s.setRTK v).busy = s.busy := rfl
@[simp] theorem State.setRTK_done (v : Vector Block 16) : (s.setRTK v).done = s.done := rfl
@[simp] theorem State.setRTK_rom (v : Vector Block 16) : (s.setRTK v).rom = s.rom := rfl
@[simp] theorem State.setRTK_inputs (v : Vector Block 16) : (s.setRTK v).inputs = s.inputs := rfl

/-! `State.setB` -/

@[simp] theorem State.setB_S (v : Vector Block 8) : (s.setB v).S = s.S := rfl
@[simp] theorem State.setB_F (v : Vector Block 8) : (s.setB v).F = s.F := rfl
@[simp] theorem State.setB_TK1 (v : Vector Block 8) : (s.setB v).TK1 = s.TK1 := rfl
@[simp] theorem State.setB_TK2 (v : Vector Block 8) : (s.setB v).TK2 = s.TK2 := rfl
@[simp] theorem State.setB_RTK (v : Vector Block 8) : (s.setB v).RTK = s.RTK := rfl
@[simp] theorem State.setB_B (v : Vector Block 8) : (s.setB v).B = v := rfl
@[simp] theorem State.setB_OUT (v : Vector Block 8) : (s.setB v).OUT = s.OUT := rfl
@[simp] theorem State.setB_step (v : Vector Block 8) : (s.setB v).step = s.step := rfl
@[simp] theorem State.setB_busy (v : Vector Block 8) : (s.setB v).busy = s.busy := rfl
@[simp] theorem State.setB_done (v : Vector Block 8) : (s.setB v).done = s.done := rfl
@[simp] theorem State.setB_rom (v : Vector Block 8) : (s.setB v).rom = s.rom := rfl
@[simp] theorem State.setB_inputs (v : Vector Block 8) : (s.setB v).inputs = s.inputs := rfl

/-! `State.setOUT` -/

@[simp] theorem State.setOUT_S (v : Vector Byte 128) : (s.setOUT v).S = s.S := rfl
@[simp] theorem State.setOUT_F (v : Vector Byte 128) : (s.setOUT v).F = s.F := rfl
@[simp] theorem State.setOUT_TK1 (v : Vector Byte 128) : (s.setOUT v).TK1 = s.TK1 := rfl
@[simp] theorem State.setOUT_TK2 (v : Vector Byte 128) : (s.setOUT v).TK2 = s.TK2 := rfl
@[simp] theorem State.setOUT_RTK (v : Vector Byte 128) : (s.setOUT v).RTK = s.RTK := rfl
@[simp] theorem State.setOUT_B (v : Vector Byte 128) : (s.setOUT v).B = s.B := rfl
@[simp] theorem State.setOUT_OUT (v : Vector Byte 128) : (s.setOUT v).OUT = v := rfl
@[simp] theorem State.setOUT_step (v : Vector Byte 128) : (s.setOUT v).step = s.step := rfl
@[simp] theorem State.setOUT_busy (v : Vector Byte 128) : (s.setOUT v).busy = s.busy := rfl
@[simp] theorem State.setOUT_done (v : Vector Byte 128) : (s.setOUT v).done = s.done := rfl
@[simp] theorem State.setOUT_rom (v : Vector Byte 128) : (s.setOUT v).rom = s.rom := rfl
@[simp] theorem State.setOUT_inputs (v : Vector Byte 128) : (s.setOUT v).inputs = s.inputs := rfl

/-! `State.setStep` -/

@[simp] theorem State.setStep_S (v : BitVec 7) : (s.setStep v).S = s.S := rfl
@[simp] theorem State.setStep_F (v : BitVec 7) : (s.setStep v).F = s.F := rfl
@[simp] theorem State.setStep_TK1 (v : BitVec 7) : (s.setStep v).TK1 = s.TK1 := rfl
@[simp] theorem State.setStep_TK2 (v : BitVec 7) : (s.setStep v).TK2 = s.TK2 := rfl
@[simp] theorem State.setStep_RTK (v : BitVec 7) : (s.setStep v).RTK = s.RTK := rfl
@[simp] theorem State.setStep_B (v : BitVec 7) : (s.setStep v).B = s.B := rfl
@[simp] theorem State.setStep_OUT (v : BitVec 7) : (s.setStep v).OUT = s.OUT := rfl
@[simp] theorem State.setStep_step (v : BitVec 7) : (s.setStep v).step = v := rfl
@[simp] theorem State.setStep_busy (v : BitVec 7) : (s.setStep v).busy = s.busy := rfl
@[simp] theorem State.setStep_done (v : BitVec 7) : (s.setStep v).done = s.done := rfl
@[simp] theorem State.setStep_rom (v : BitVec 7) : (s.setStep v).rom = s.rom := rfl
@[simp] theorem State.setStep_inputs (v : BitVec 7) : (s.setStep v).inputs = s.inputs := rfl

/-! `State.setBusy` -/

@[simp] theorem State.setBusy_S (v : Bool) : (s.setBusy v).S = s.S := rfl
@[simp] theorem State.setBusy_F (v : Bool) : (s.setBusy v).F = s.F := rfl
@[simp] theorem State.setBusy_TK1 (v : Bool) : (s.setBusy v).TK1 = s.TK1 := rfl
@[simp] theorem State.setBusy_TK2 (v : Bool) : (s.setBusy v).TK2 = s.TK2 := rfl
@[simp] theorem State.setBusy_RTK (v : Bool) : (s.setBusy v).RTK = s.RTK := rfl
@[simp] theorem State.setBusy_B (v : Bool) : (s.setBusy v).B = s.B := rfl
@[simp] theorem State.setBusy_OUT (v : Bool) : (s.setBusy v).OUT = s.OUT := rfl
@[simp] theorem State.setBusy_step (v : Bool) : (s.setBusy v).step = s.step := rfl
@[simp] theorem State.setBusy_busy (v : Bool) : (s.setBusy v).busy = v := rfl
@[simp] theorem State.setBusy_done (v : Bool) : (s.setBusy v).done = s.done := rfl
@[simp] theorem State.setBusy_rom (v : Bool) : (s.setBusy v).rom = s.rom := rfl
@[simp] theorem State.setBusy_inputs (v : Bool) : (s.setBusy v).inputs = s.inputs := rfl

/-! `State.setDone` -/

@[simp] theorem State.setDone_S (v : Bool) : (s.setDone v).S = s.S := rfl
@[simp] theorem State.setDone_F (v : Bool) : (s.setDone v).F = s.F := rfl
@[simp] theorem State.setDone_TK1 (v : Bool) : (s.setDone v).TK1 = s.TK1 := rfl
@[simp] theorem State.setDone_TK2 (v : Bool) : (s.setDone v).TK2 = s.TK2 := rfl
@[simp] theorem State.setDone_RTK (v : Bool) : (s.setDone v).RTK = s.RTK := rfl
@[simp] theorem State.setDone_B (v : Bool) : (s.setDone v).B = s.B := rfl
@[simp] theorem State.setDone_OUT (v : Bool) : (s.setDone v).OUT = s.OUT := rfl
@[simp] theorem State.setDone_step (v : Bool) : (s.setDone v).step = s.step := rfl
@[simp] theorem State.setDone_busy (v : Bool) : (s.setDone v).busy = s.busy := rfl
@[simp] theorem State.setDone_done (v : Bool) : (s.setDone v).done = v := rfl
@[simp] theorem State.setDone_rom (v : Bool) : (s.setDone v).rom = s.rom := rfl
@[simp] theorem State.setDone_inputs (v : Bool) : (s.setDone v).inputs = s.inputs := rfl

/-! `State.setRom` -/

@[simp] theorem State.setRom_S (v : List Host.Cell) : (s.setRom v).S = s.S := rfl
@[simp] theorem State.setRom_F (v : List Host.Cell) : (s.setRom v).F = s.F := rfl
@[simp] theorem State.setRom_TK1 (v : List Host.Cell) : (s.setRom v).TK1 = s.TK1 := rfl
@[simp] theorem State.setRom_TK2 (v : List Host.Cell) : (s.setRom v).TK2 = s.TK2 := rfl
@[simp] theorem State.setRom_RTK (v : List Host.Cell) : (s.setRom v).RTK = s.RTK := rfl
@[simp] theorem State.setRom_B (v : List Host.Cell) : (s.setRom v).B = s.B := rfl
@[simp] theorem State.setRom_OUT (v : List Host.Cell) : (s.setRom v).OUT = s.OUT := rfl
@[simp] theorem State.setRom_step (v : List Host.Cell) : (s.setRom v).step = s.step := rfl
@[simp] theorem State.setRom_busy (v : List Host.Cell) : (s.setRom v).busy = s.busy := rfl
@[simp] theorem State.setRom_done (v : List Host.Cell) : (s.setRom v).done = s.done := rfl
@[simp] theorem State.setRom_rom (v : List Host.Cell) : (s.setRom v).rom = v := rfl
@[simp] theorem State.setRom_inputs (v : List Host.Cell) : (s.setRom v).inputs = s.inputs := rfl

/-! `State.setInputs` -/

@[simp] theorem State.setInputs_S (v : List HostInput) : (s.setInputs v).S = s.S := rfl
@[simp] theorem State.setInputs_F (v : List HostInput) : (s.setInputs v).F = s.F := rfl
@[simp] theorem State.setInputs_TK1 (v : List HostInput) : (s.setInputs v).TK1 = s.TK1 := rfl
@[simp] theorem State.setInputs_TK2 (v : List HostInput) : (s.setInputs v).TK2 = s.TK2 := rfl
@[simp] theorem State.setInputs_RTK (v : List HostInput) : (s.setInputs v).RTK = s.RTK := rfl
@[simp] theorem State.setInputs_B (v : List HostInput) : (s.setInputs v).B = s.B := rfl
@[simp] theorem State.setInputs_OUT (v : List HostInput) : (s.setInputs v).OUT = s.OUT := rfl
@[simp] theorem State.setInputs_step (v : List HostInput) : (s.setInputs v).step = s.step := rfl
@[simp] theorem State.setInputs_busy (v : List HostInput) : (s.setInputs v).busy = s.busy := rfl
@[simp] theorem State.setInputs_done (v : List HostInput) : (s.setInputs v).done = s.done := rfl
@[simp] theorem State.setInputs_rom (v : List HostInput) : (s.setInputs v).rom = s.rom := rfl
@[simp] theorem State.setInputs_inputs (v : List HostInput) : (s.setInputs v).inputs = v := rfl

/-! The state after reset (R25). -/

@[simp] theorem State.reset_S : State.reset.S = Block.zero := rfl
@[simp] theorem State.reset_F : State.reset.F = Block.zero := rfl
@[simp] theorem State.reset_TK1 : State.reset.TK1 = Block.zero := rfl
@[simp] theorem State.reset_TK2 : State.reset.TK2 = Block.zero := rfl
@[simp] theorem State.reset_RTK : State.reset.RTK = Vector.replicate 16 Block.zero := rfl
@[simp] theorem State.reset_B : State.reset.B = Vector.replicate 8 Block.zero := rfl
@[simp] theorem State.reset_OUT : State.reset.OUT = Vector.replicate 128 0 := rfl
@[simp] theorem State.reset_step : State.reset.step = 0 := rfl
@[simp] theorem State.reset_busy : State.reset.busy = false := rfl
@[simp] theorem State.reset_done : State.reset.done = false := rfl
@[simp] theorem State.reset_rom : State.reset.rom = [] := rfl
@[simp] theorem State.reset_inputs : State.reset.inputs = [] := rfl

/-! `State.writeRTK` -/

@[simp] theorem State.writeRTK_S (k : Fin 16) (v : Block) : (s.writeRTK k v).S = s.S := rfl
@[simp] theorem State.writeRTK_F (k : Fin 16) (v : Block) : (s.writeRTK k v).F = s.F := rfl
@[simp] theorem State.writeRTK_TK1 (k : Fin 16) (v : Block) : (s.writeRTK k v).TK1 = s.TK1 := rfl
@[simp] theorem State.writeRTK_TK2 (k : Fin 16) (v : Block) : (s.writeRTK k v).TK2 = s.TK2 := rfl
@[simp] theorem State.writeRTK_RTK (k : Fin 16) (v : Block) : (s.writeRTK k v).RTK = s.RTK.set k v := rfl
@[simp] theorem State.writeRTK_B (k : Fin 16) (v : Block) : (s.writeRTK k v).B = s.B := rfl
@[simp] theorem State.writeRTK_OUT (k : Fin 16) (v : Block) : (s.writeRTK k v).OUT = s.OUT := rfl
@[simp] theorem State.writeRTK_step (k : Fin 16) (v : Block) : (s.writeRTK k v).step = s.step := rfl
@[simp] theorem State.writeRTK_busy (k : Fin 16) (v : Block) : (s.writeRTK k v).busy = s.busy := rfl
@[simp] theorem State.writeRTK_done (k : Fin 16) (v : Block) : (s.writeRTK k v).done = s.done := rfl
@[simp] theorem State.writeRTK_rom (k : Fin 16) (v : Block) : (s.writeRTK k v).rom = s.rom := rfl
@[simp] theorem State.writeRTK_inputs (k : Fin 16) (v : Block) : (s.writeRTK k v).inputs = s.inputs := rfl

/-! `State.mapLanes` -/

@[simp] theorem State.mapLanes_S (f : Fin 8 → Block → Block) : (s.mapLanes f).S = s.S := rfl
@[simp] theorem State.mapLanes_F (f : Fin 8 → Block → Block) : (s.mapLanes f).F = s.F := rfl
@[simp] theorem State.mapLanes_TK1 (f : Fin 8 → Block → Block) : (s.mapLanes f).TK1 = s.TK1 := rfl
@[simp] theorem State.mapLanes_TK2 (f : Fin 8 → Block → Block) : (s.mapLanes f).TK2 = s.TK2 := rfl
@[simp] theorem State.mapLanes_RTK (f : Fin 8 → Block → Block) : (s.mapLanes f).RTK = s.RTK := rfl
@[simp] theorem State.mapLanes_B (f : Fin 8 → Block → Block) : (s.mapLanes f).B = Vector.ofFn fun i => f i s.B[i] := rfl
@[simp] theorem State.mapLanes_OUT (f : Fin 8 → Block → Block) : (s.mapLanes f).OUT = s.OUT := rfl
@[simp] theorem State.mapLanes_step (f : Fin 8 → Block → Block) : (s.mapLanes f).step = s.step := rfl
@[simp] theorem State.mapLanes_busy (f : Fin 8 → Block → Block) : (s.mapLanes f).busy = s.busy := rfl
@[simp] theorem State.mapLanes_done (f : Fin 8 → Block → Block) : (s.mapLanes f).done = s.done := rfl
@[simp] theorem State.mapLanes_rom (f : Fin 8 → Block → Block) : (s.mapLanes f).rom = s.rom := rfl
@[simp] theorem State.mapLanes_inputs (f : Fin 8 → Block → Block) : (s.mapLanes f).inputs = s.inputs := rfl

/-! `State.consumeInput` -/

@[simp] theorem State.consumeInput_S : (s.consumeInput).S = s.S := rfl
@[simp] theorem State.consumeInput_F : (s.consumeInput).F = s.F := rfl
@[simp] theorem State.consumeInput_TK1 : (s.consumeInput).TK1 = s.TK1 := rfl
@[simp] theorem State.consumeInput_TK2 : (s.consumeInput).TK2 = s.TK2 := rfl
@[simp] theorem State.consumeInput_RTK : (s.consumeInput).RTK = s.RTK := rfl
@[simp] theorem State.consumeInput_B : (s.consumeInput).B = s.B := rfl
@[simp] theorem State.consumeInput_OUT : (s.consumeInput).OUT = s.OUT := rfl
@[simp] theorem State.consumeInput_step : (s.consumeInput).step = s.step := rfl
@[simp] theorem State.consumeInput_busy : (s.consumeInput).busy = s.busy := rfl
@[simp] theorem State.consumeInput_done : (s.consumeInput).done = s.done := rfl
@[simp] theorem State.consumeInput_rom : (s.consumeInput).rom = s.rom := rfl
@[simp] theorem State.consumeInput_inputs : (s.consumeInput).inputs = s.inputs.tail := rfl

/-! `State.nextStep` -/

@[simp] theorem State.nextStep_S : (s.nextStep).S = s.S := rfl
@[simp] theorem State.nextStep_F : (s.nextStep).F = s.F := rfl
@[simp] theorem State.nextStep_TK1 : (s.nextStep).TK1 = s.TK1 := rfl
@[simp] theorem State.nextStep_TK2 : (s.nextStep).TK2 = s.TK2 := rfl
@[simp] theorem State.nextStep_RTK : (s.nextStep).RTK = s.RTK := rfl
@[simp] theorem State.nextStep_B : (s.nextStep).B = s.B := rfl
@[simp] theorem State.nextStep_OUT : (s.nextStep).OUT = s.OUT := rfl
@[simp] theorem State.nextStep_step : (s.nextStep).step = s.step + 1 := rfl
@[simp] theorem State.nextStep_busy : (s.nextStep).busy = s.busy := rfl
@[simp] theorem State.nextStep_done : (s.nextStep).done = s.done := rfl
@[simp] theorem State.nextStep_rom : (s.nextStep).rom = s.rom := rfl
@[simp] theorem State.nextStep_inputs : (s.nextStep).inputs = s.inputs := rfl

/-! `State.applyReset` -/

@[simp] theorem State.applyReset_S : (s.applyReset).S = Block.zero := rfl
@[simp] theorem State.applyReset_F : (s.applyReset).F = Block.zero := rfl
@[simp] theorem State.applyReset_TK1 : (s.applyReset).TK1 = Block.zero := rfl
@[simp] theorem State.applyReset_TK2 : (s.applyReset).TK2 = Block.zero := rfl
@[simp] theorem State.applyReset_RTK : (s.applyReset).RTK = Vector.replicate 16 Block.zero := rfl
@[simp] theorem State.applyReset_B : (s.applyReset).B = Vector.replicate 8 Block.zero := rfl
@[simp] theorem State.applyReset_OUT : (s.applyReset).OUT = Vector.replicate 128 0 := rfl
@[simp] theorem State.applyReset_step : (s.applyReset).step = 0 := rfl
@[simp] theorem State.applyReset_busy : (s.applyReset).busy = false := rfl
@[simp] theorem State.applyReset_done : (s.applyReset).done = false := rfl
@[simp] theorem State.applyReset_rom : (s.applyReset).rom = s.rom := rfl
@[simp] theorem State.applyReset_inputs : (s.applyReset).inputs = s.inputs := rfl

/-! `State.flagsOnAccept` -/

@[simp] theorem State.flagsOnAccept_S : (s.flagsOnAccept).S = s.S := rfl
@[simp] theorem State.flagsOnAccept_F : (s.flagsOnAccept).F = s.F := rfl
@[simp] theorem State.flagsOnAccept_TK1 : (s.flagsOnAccept).TK1 = s.TK1 := rfl
@[simp] theorem State.flagsOnAccept_TK2 : (s.flagsOnAccept).TK2 = s.TK2 := rfl
@[simp] theorem State.flagsOnAccept_RTK : (s.flagsOnAccept).RTK = s.RTK := rfl
@[simp] theorem State.flagsOnAccept_B : (s.flagsOnAccept).B = s.B := rfl
@[simp] theorem State.flagsOnAccept_OUT : (s.flagsOnAccept).OUT = s.OUT := rfl
@[simp] theorem State.flagsOnAccept_step : (s.flagsOnAccept).step = s.step := rfl
@[simp] theorem State.flagsOnAccept_busy : (s.flagsOnAccept).busy = true := rfl
@[simp] theorem State.flagsOnAccept_done : (s.flagsOnAccept).done = false := rfl
@[simp] theorem State.flagsOnAccept_rom : (s.flagsOnAccept).rom = s.rom := rfl
@[simp] theorem State.flagsOnAccept_inputs : (s.flagsOnAccept).inputs = s.inputs := rfl

/-! `State.flagsOnFinish` -/

@[simp] theorem State.flagsOnFinish_S : (s.flagsOnFinish).S = s.S := rfl
@[simp] theorem State.flagsOnFinish_F : (s.flagsOnFinish).F = s.F := rfl
@[simp] theorem State.flagsOnFinish_TK1 : (s.flagsOnFinish).TK1 = s.TK1 := rfl
@[simp] theorem State.flagsOnFinish_TK2 : (s.flagsOnFinish).TK2 = s.TK2 := rfl
@[simp] theorem State.flagsOnFinish_RTK : (s.flagsOnFinish).RTK = s.RTK := rfl
@[simp] theorem State.flagsOnFinish_B : (s.flagsOnFinish).B = s.B := rfl
@[simp] theorem State.flagsOnFinish_OUT : (s.flagsOnFinish).OUT = s.OUT := rfl
@[simp] theorem State.flagsOnFinish_step : (s.flagsOnFinish).step = s.step := rfl
@[simp] theorem State.flagsOnFinish_busy : (s.flagsOnFinish).busy = false := rfl
@[simp] theorem State.flagsOnFinish_done : (s.flagsOnFinish).done = true := rfl
@[simp] theorem State.flagsOnFinish_rom : (s.flagsOnFinish).rom = s.rom := rfl
@[simp] theorem State.flagsOnFinish_inputs : (s.flagsOnFinish).inputs = s.inputs := rfl

/-! `State.acceptStart` -/

@[simp] theorem State.acceptStart_S : (s.acceptStart).S = s.ports.mIn := rfl
@[simp] theorem State.acceptStart_F : (s.acceptStart).F = s.F := rfl
@[simp] theorem State.acceptStart_TK1 : (s.acceptStart).TK1 = s.ports.tIn := rfl
@[simp] theorem State.acceptStart_TK2 : (s.acceptStart).TK2 = s.ports.kIn := rfl
@[simp] theorem State.acceptStart_RTK : (s.acceptStart).RTK = s.RTK := rfl
@[simp] theorem State.acceptStart_B : (s.acceptStart).B = s.B := rfl
@[simp] theorem State.acceptStart_OUT : (s.acceptStart).OUT = s.OUT := rfl
@[simp] theorem State.acceptStart_step : (s.acceptStart).step = 1 := rfl
@[simp] theorem State.acceptStart_busy : (s.acceptStart).busy = true := rfl
@[simp] theorem State.acceptStart_done : (s.acceptStart).done = false := rfl
@[simp] theorem State.acceptStart_rom : (s.acceptStart).rom = s.rom := rfl
@[simp] theorem State.acceptStart_inputs : (s.acceptStart).inputs = s.inputs := rfl

/-! `State.clearInternal` -/

@[simp] theorem State.clearInternal_S : (s.clearInternal).S = Block.zero := rfl
@[simp] theorem State.clearInternal_F : (s.clearInternal).F = Block.zero := rfl
@[simp] theorem State.clearInternal_TK1 : (s.clearInternal).TK1 = Block.zero := rfl
@[simp] theorem State.clearInternal_TK2 : (s.clearInternal).TK2 = Block.zero := rfl
@[simp] theorem State.clearInternal_RTK : (s.clearInternal).RTK = Vector.replicate 16 Block.zero := rfl
@[simp] theorem State.clearInternal_B : (s.clearInternal).B = Vector.replicate 8 Block.zero := rfl
@[simp] theorem State.clearInternal_OUT : (s.clearInternal).OUT = s.OUT := rfl
@[simp] theorem State.clearInternal_step : (s.clearInternal).step = s.step := rfl
@[simp] theorem State.clearInternal_busy : (s.clearInternal).busy = s.busy := rfl
@[simp] theorem State.clearInternal_done : (s.clearInternal).done = s.done := rfl
@[simp] theorem State.clearInternal_rom : (s.clearInternal).rom = s.rom := rfl
@[simp] theorem State.clearInternal_inputs : (s.clearInternal).inputs = s.inputs := rfl

/-- Two states with equal fields are equal. -/
theorem State.eq_of_fields {s t : State} (hS : s.S = t.S) (hF : s.F = t.F) (h1 : s.TK1 = t.TK1) (h2 : s.TK2 = t.TK2)
    (hR : s.RTK = t.RTK) (hB : s.B = t.B) (hO : s.OUT = t.OUT) (hp : s.step = t.step) (hb : s.busy = t.busy)
    (hd : s.done = t.done) (hm : s.rom = t.rom) (hi : s.inputs = t.inputs) : s = t := by
  cases s
  cases t
  simp_all

end Sys2Proof.Machine
end

