-- ==== Sys2Proof/Laws/Ops.lean ====
section
/-! SUPPORT. One lemma for each shared operation, saying once what it does. -/

namespace Sys2Proof

@[simp] theorem Block.getElem_zero (j : Nat) (h : j < 16) : Block.zero[j] = 0 := by simp [Block.zero]

/-- XOR of Blocks, byte by byte. -/
@[simp] theorem Block.getElem_xor (X Y : Block) (j : Nat) (h : j < 16) : (Block.xor X Y)[j] = X[j] ^^^ Y[j] := by
  simp [Block.xor]

theorem Block.xor_comm (X Y : Block) : Block.xor X Y = Block.xor Y X := by
  ext j h
  simp [BitVec.xor_comm]

theorem Block.xor_assoc (X Y Z : Block) : Block.xor (Block.xor X Y) Z = Block.xor X (Block.xor Y Z) := by
  ext j h
  simp [BitVec.xor_assoc]

@[simp] theorem Block.xor_self (X : Block) : Block.xor X X = Block.zero := by
  ext j h
  simp

@[simp] theorem Block.xor_zero (X : Block) : Block.xor X Block.zero = X := by
  ext j h
  simp

/-- Adding a key twice takes it out again. -/
@[simp] theorem Block.xor_xor_cancel (X K : Block) : Block.xor (Block.xor X K) K = X := by
  rw [Block.xor_assoc, Block.xor_self, Block.xor_zero]

end Sys2Proof

namespace Sys2Proof.Machine

variable (s : State)

/-- `State.writeRTK` is an update of the schedule store alone. -/
theorem State.writeRTK_eq (k : Fin 16) (v : Block) : s.writeRTK k v = s.setRTK (s.RTK.set k v) := rfl

/-- The written entry of the schedule store. -/
theorem State.writeRTK_same (k : Fin 16) (v : Block) : (s.writeRTK k v).RTK[k] = v := by simp [State.writeRTK]

/-- The other entries of the schedule store. -/
theorem State.writeRTK_other {k r : Fin 16} (v : Block) (h : r ≠ k) : (s.writeRTK k v).RTK[r] = s.RTK[r] := by
  have hv : k.val ≠ r.val := fun e => h (Fin.ext e.symm)
  simp [State.writeRTK, hv]

/-- `State.mapLanes` is an update of the lane register file alone. -/
theorem State.mapLanes_eq (f : Fin 8 → Block → Block) :
    s.mapLanes f = s.setB (Vector.ofFn fun i => f i s.B[i]) := rfl

/-- Each lane from its own old value. -/
theorem State.mapLanes_lane (f : Fin 8 → Block → Block) (i : Fin 8) : (s.mapLanes f).B[i] = f i s.B[i] := by
  simp [State.mapLanes]

/-- `MemWrite(OUT + 16i, 16, v)`: the slot's bytes. -/
theorem memWriteOut_slot (out : Vector Byte 128) (i : Fin 8) (v : Block) (j : Fin 16) :
    (memWriteOut out i v)[16 * i.val + j.val] = v[j] := by
  have h1 : (16 * i.val + j.val) / 16 = i.val := by omega
  simp [memWriteOut, h1, Nat.mod_eq_of_lt j.isLt]

/-- `MemWrite(OUT + 16i, 16, v)`: the bytes outside the slot. -/
theorem memWriteOut_outside (out : Vector Byte 128) (i : Fin 8) (v : Block) {a : Nat} (h : a < 128) (ha : a / 16 ≠ i.val) :
    (memWriteOut out i v)[a] = out[a] := by
  simp [memWriteOut, ha]

/-- The byte of `OUT` at `a` after one of the eight writes. -/
theorem getElem_memWriteOut (out : Vector Byte 128) (i : Fin 8) (v : Block) {a : Nat} (h : a < 128) :
    (memWriteOut out i v)[a] = if a / 16 = i.val then v[Fin.ofNat 16 a] else out[a] := by
  simp [memWriteOut]

/-- After writes whose slots include that of byte `a`, the byte comes from that slot's Block. -/
theorem getElem_foldl_memWriteOut (v : Fin 8 → Block) (is : List (Fin 8)) (out : Vector Byte 128) {a : Nat} (h : a < 128) :
    (is.foldl (fun o i => memWriteOut o i (v i)) out)[a] =
      if (Fin.ofNat 8 (a / 16)) ∈ is then (v (Fin.ofNat 8 (a / 16)))[Fin.ofNat 16 a] else out[a] := by
  induction is generalizing out with
  | nil => simp
  | cons i is ih =>
    have hi : a / 16 = i.val ↔ Fin.ofNat 8 (a / 16) = i := by
      rw [Fin.ext_iff, Fin.val_ofNat, Nat.mod_eq_of_lt (by omega)]
    rw [List.foldl_cons, ih, getElem_memWriteOut out i (v i) h]
    simp only [hi, List.mem_cons]
    generalize Fin.ofNat 8 (a / 16) = q
    by_cases hm : q ∈ is
    · simp only [hm, or_true, if_true]
    · by_cases he : q = i
      · subst he
        simp only [hm, true_or, if_true, if_false]
      · simp only [hm, he, or_false, if_false]

/-- The eight writes of `MASK` leave byte `j` of lane `i` at `OUT[16i + j]` (R42). -/
theorem memWriteOutAll_slot (out : Vector Byte 128) (v : Fin 8 → Block) (i : Fin 8) (j : Fin 16) :
    (memWriteOutAll out v)[16 * i.val + j.val] = (v i)[j] := by
  have h1 : (16 * i.val + j.val) / 16 = i.val := by omega
  have h2 : Fin.ofNat 8 ((16 * i.val + j.val) / 16) = i := by
    rw [Fin.ext_iff, Fin.val_ofNat, h1, Nat.mod_eq_of_lt i.isLt]
  have h3 : Fin.ofNat 16 (16 * i.val + j.val) = j := by
    rw [Fin.ext_iff, Fin.val_ofNat]
    omega
  unfold memWriteOutAll
  rw [getElem_foldl_memWriteOut v _ out (by omega), h2]
  simp only [List.mem_finRange, if_true]
  exact congrArg (fun x : Fin 16 => (v i)[x]) h3

/-- The ports when the host has an entry for the step. -/
theorem State.ports_cons {p : HostInput} {ps : List HostInput} (h : s.inputs = p :: ps) : s.ports = p := by
  simp [State.ports, h]

/-- The ports when the host drives nothing more. -/
theorem State.ports_nil (h : s.inputs = []) : s.ports = HostInput.idle := by simp [State.ports, h]

/-- The ports depend on the host's inputs alone. -/
theorem State.ports_congr {t : State} (h : t.inputs = s.inputs) : t.ports = s.ports := by simp [State.ports, h]

/-- `State.consumeInput` is an update of the host's inputs alone. -/
theorem State.consumeInput_eq : s.consumeInput = s.setInputs s.inputs.tail := rfl

/-- The key of a lane (R123). -/
theorem State.laneKey_eq (k : Fin 16) (i : Fin 8) : s.laneKey k i = branchKey s.RTK[k] (branchConstant i) := rfl

end Sys2Proof.Machine
end

