-- ==== Sys2Proof/Laws/Exec.lean ====
section
/-! SUPPORT. What exec answers for each op, and that it always answers a next state. -/

namespace Sys2Proof.Machine

variable (s : State)

theorem exec_wait_start (h : s.ports.start = true) : exec .wait s = .next s.acceptStart := by simp [exec, execWait, h]
theorem exec_wait_idle (h : s.ports.start = false) : exec .wait s = .next (s.setStep 0) := by simp [exec, execWait, h]
theorem exec_rtk (k : Fin 16) : exec (.rtk k) s = .next (s.writeRTK k (rtkAssemble s.TK1 s.TK2 k)).nextStep := rfl
theorem exec_tkh : exec .tkh s = .next ((s.setTK1 (hPerm s.TK1)).setTK2 (hPerm s.TK2)).nextStep := rfl
theorem exec_tkg : exec .tkg s = .next (s.setTK1 (gBlock s.TK1)).nextStep := rfl
theorem exec_xork (k : Fin 16) : exec (.xork k) s = .next (s.setS (addRoundKey s.S (s.rtkOperand k))).nextStep := rfl
theorem exec_aesr (k : Fin 16) : exec (.aesr k) s = .next (s.setS (aesRound s.S (s.rtkOperand k))).nextStep := rfl
theorem exec_aesrz : exec .aesrz s = .next (s.setS (aesRound s.S Block.zero)).nextStep := rfl
theorem exec_fork : exec .fork s = .next ((s.setF s.S).mapLanes fun _ _ => s.S).nextStep := rfl
theorem exec_bxork (k : Fin 16) :
    exec (.bxork k) s = .next (s.mapLanes fun i b => Block.xor b (s.laneKey k i)).nextStep := rfl
theorem exec_baesr (k : Fin 16) :
    exec (.baesr k) s = .next (s.mapLanes fun i b => aesRound b (s.laneKey k i)).nextStep := rfl
theorem exec_baesrz : exec .baesrz s = .next (s.mapLanes fun _ b => aesRound b Block.zero).nextStep := rfl
theorem exec_mask (k : Fin 16) :
    exec (.mask k) s = .next (s.setOUT (memWriteOutAll s.OUT (s.maskedLane k))).nextStep := rfl
theorem exec_fin : exec .fin s = .next (s.clearInternal.flagsOnFinish.setStep 0) := rfl

end Sys2Proof.Machine
end

