-- ==== Sys2Proof/Laws/Memory.lean ====
section
/-! SUPPORT. The control ROM's list of cells: reading after writing, and the canonical form. -/

namespace Sys2Proof.Machine

/-- The hardwired ROM is in canonical form. -/
theorem Memory.wf_nil : Memory.wf [] = true := rfl

/-- Reading the hardwired ROM gives R69's word. -/
theorem Memory.read_nil (a : Nat) : Memory.read [] a = if a < Config.nsteps then romWord a else none := rfl

/-- Nothing exists above address 68 (R68). -/
theorem Memory.read_outside (m : List Host.Cell) {a : Nat} (h : Config.nsteps ≤ a) : Memory.read m a = none := by
  simp [Memory.read, Nat.not_lt.mpr h]

theorem Memory.listed_erase_same (m : List Host.Cell) (a : Nat) : Memory.listed (Memory.erase m a) a = none := by
  induction m with
  | nil => rfl
  | cons c m ih =>
    obtain ⟨b, v⟩ := c
    by_cases h : a = b <;> simp [Memory.erase, Memory.listed, h]
    · exact h ▸ ih
    · exact ih

theorem Memory.listed_erase_other (m : List Host.Cell) {a b : Nat} (h : b ≠ a) :
    Memory.listed (Memory.erase m a) b = Memory.listed m b := by
  induction m with
  | nil => rfl
  | cons c m ih =>
    obtain ⟨d, v⟩ := c
    by_cases hd : a = d
    · subst hd
      simp [Memory.erase, Memory.listed, h, ih]
    · simp [Memory.erase, Memory.listed, hd, ih]

theorem Memory.listed_insert_same (m : List Host.Cell) (a : Nat) (v : Byte) (h : Memory.listed m a = none) :
    Memory.listed (Memory.insert m a v) a = some v := by
  induction m with
  | nil => simp [Memory.insert, Memory.listed]
  | cons c m ih =>
    obtain ⟨b, w⟩ := c
    by_cases hab : a = b
    · simp [Memory.listed, hab] at h
    · have hm : Memory.listed m a = none := by simpa [Memory.listed, hab] using h
      by_cases hlt : a < b
      · simp [Memory.insert, Memory.listed, hlt]
      · simp [Memory.insert, Memory.listed, hlt, hab, ih hm]

theorem Memory.listed_insert_other (m : List Host.Cell) {a b : Nat} (v : Byte) (h : b ≠ a) :
    Memory.listed (Memory.insert m a v) b = Memory.listed m b := by
  induction m with
  | nil => simp [Memory.insert, Memory.listed, h]
  | cons c m ih =>
    obtain ⟨d, w⟩ := c
    by_cases hlt : a < d
    · simp [Memory.insert, Memory.listed, hlt, h]
    · simp [Memory.insert, Memory.listed, hlt, ih]

/-- A word written at a ROM address is read back. -/
theorem Memory.read_write_same (m : List Host.Cell) {a : Nat} (v : Byte) (h : a < Config.nsteps) :
    Memory.read (Memory.write m a v) a = some v := by
  by_cases hv : romWord a = some v
  · simp [Memory.read, Memory.write, h, hv, Memory.listed_erase_same]
  · simp [Memory.read, Memory.write, h, hv,
      Memory.listed_insert_same _ a v (Memory.listed_erase_same m a)]

/-- A write leaves every other address alone. -/
theorem Memory.read_write_other (m : List Host.Cell) {a b : Nat} (v : Byte) (h : b ≠ a) :
    Memory.read (Memory.write m a v) b = Memory.read m b := by
  by_cases ha : a < Config.nsteps
  · by_cases hv : romWord a = some v
    · simp [Memory.read, Memory.write, ha, hv, Memory.listed_erase_other m h]
    · simp [Memory.read, Memory.write, ha, hv, Memory.listed_insert_other _ v h, Memory.listed_erase_other m h]
  · simp [Memory.write, ha]

/-- A rising list above a bound is rising above every lower bound. -/
theorem Memory.risingFrom_mono {m : List Host.Cell} {lo lo' : Nat} (h : lo' ≤ lo) (hm : Memory.risingFrom lo m = true) :
    Memory.risingFrom lo' m = true := by
  cases m with
  | nil => rfl
  | cons c m =>
    obtain ⟨a, v⟩ := c
    simp only [Memory.risingFrom, Bool.and_eq_true, decide_eq_true_eq] at hm ⊢
    exact ⟨h.trans hm.1, hm.2⟩

theorem Memory.risingFrom_erase {m : List Host.Cell} {lo : Nat} (a : Nat) (hm : Memory.risingFrom lo m = true) :
    Memory.risingFrom lo (Memory.erase m a) = true := by
  induction m generalizing lo with
  | nil => rfl
  | cons c m ih =>
    obtain ⟨b, v⟩ := c
    simp only [Memory.risingFrom, Bool.and_eq_true, decide_eq_true_eq] at hm
    by_cases h : a = b
    · simpa [Memory.erase, h] using Memory.risingFrom_mono (by omega) (ih (lo := b + 1) hm.2)
    · simp [Memory.erase, h, Memory.risingFrom, hm.1, ih hm.2]

theorem Memory.risingFrom_insert {m : List Host.Cell} {lo a : Nat} (v : Byte) (hlo : lo ≤ a)
    (hn : Memory.listed m a = none) (hm : Memory.risingFrom lo m = true) :
    Memory.risingFrom lo (Memory.insert m a v) = true := by
  induction m generalizing lo with
  | nil => simp [Memory.insert, Memory.risingFrom, hlo]
  | cons c m ih =>
    obtain ⟨b, w⟩ := c
    simp only [Memory.risingFrom, Bool.and_eq_true, decide_eq_true_eq] at hm
    have hab : a ≠ b := by
      rintro rfl
      simp [Memory.listed] at hn
    by_cases hlt : a < b
    · simp [Memory.insert, Memory.risingFrom, hlt, hlo, hm.2]
    · have hn' : Memory.listed m a = none := by simpa [Memory.listed, hab] using hn
      simp [Memory.insert, Memory.risingFrom, hlt, hm.1, ih (lo := b + 1) (by omega) hn' hm.2]

/-- A cell left in the list was in it. -/
theorem Memory.mem_of_mem_erase {m : List Host.Cell} {a : Nat} {c : Host.Cell} (h : c ∈ Memory.erase m a) : c ∈ m := by
  induction m with
  | nil => simp [Memory.erase] at h
  | cons d m ih =>
    obtain ⟨b, v⟩ := d
    by_cases hab : a = b
    · exact List.mem_cons_of_mem _ (ih (by simpa [Memory.erase, hab] using h))
    · rcases List.mem_cons.mp (by simpa [Memory.erase, hab] using h) with h | h
      · exact h ▸ List.mem_cons_self
      · exact List.mem_cons_of_mem _ (ih h)

/-- A cell of the list after an insertion is the new one or an old one. -/
theorem Memory.mem_insert {m : List Host.Cell} {a : Nat} {v : Byte} {c : Host.Cell} (h : c ∈ Memory.insert m a v) :
    c = (a, v) ∨ c ∈ m := by
  induction m with
  | nil => exact .inl (by simpa [Memory.insert] using h)
  | cons d m ih =>
    obtain ⟨b, w⟩ := d
    by_cases hlt : a < b
    · exact List.mem_cons.mp (by simpa [Memory.insert, hlt] using h)
    · rcases List.mem_cons.mp (by simpa [Memory.insert, hlt] using h) with h | h
      · exact .inr (h ▸ List.mem_cons_self)
      · exact (ih h).imp id (List.mem_cons_of_mem _)

/-- What holds of every cell still holds after leaving some out. -/
theorem Memory.all_erase {p : Host.Cell → Bool} {m : List Host.Cell} (a : Nat) (h : m.all p = true) :
    (Memory.erase m a).all p = true :=
  List.all_eq_true.mpr fun c hc => List.all_eq_true.mp h c (Memory.mem_of_mem_erase hc)

/-- What holds of every cell and of the new one holds after an insertion. -/
theorem Memory.all_insert {p : Host.Cell → Bool} {m : List Host.Cell} {a : Nat} {v : Byte} (hp : p (a, v) = true)
    (h : m.all p = true) : (Memory.insert m a v).all p = true :=
  List.all_eq_true.mpr fun c hc => (Memory.mem_insert hc).elim (fun e => e ▸ hp) (List.all_eq_true.mp h c)

/-- A write keeps the canonical form. -/
theorem Memory.write_wf {m : List Host.Cell} (a : Nat) (v : Byte) (h : Memory.wf m = true) :
    Memory.wf (Memory.write m a v) = true := by
  simp only [Memory.wf, Bool.and_eq_true] at h ⊢
  by_cases ha : a < Config.nsteps
  · by_cases hv : romWord a = some v
    · simp only [Memory.write, ha, hv, if_true]
      exact ⟨Memory.risingFrom_erase a h.1, Memory.all_erase a h.2⟩
    · simp only [Memory.write, ha, hv, if_true, if_false]
      exact ⟨Memory.risingFrom_insert v (Nat.zero_le a) (Memory.listed_erase_same m a) (Memory.risingFrom_erase a h.1),
        Memory.all_insert (by simp [ha, hv]) (Memory.all_erase a h.2)⟩
  · simp only [Memory.write, ha, if_false]
    exact h

end Sys2Proof.Machine
end

