-- ==== Sys2Proof/Laws/PerInstr.lean ====
section
/-! SUPPORT. The family Listing: an instruction's listing line stands for that instruction and no other op, and it
carries an operand exactly when its op has an index (spec/30_encoding.md R65, R72). -/

namespace Sys2Proof.Laws.Listing

/-- What is stated of each instruction. -/
def Statement (i : Instr) : Prop :=
  i.line.ops = some [i] ∧ i.mnemonic.formatK = i.index.isSome ∧ i.line.operand.isSome = i.index.isSome

theorem wait : Statement .wait := by unfold Statement; decide
theorem rtk (k : Fin 16) : Statement (.rtk k) := by revert k; unfold Statement; decide
theorem tkh : Statement .tkh := by unfold Statement; decide
theorem tkg : Statement .tkg := by unfold Statement; decide
theorem xork (k : Fin 16) : Statement (.xork k) := by revert k; unfold Statement; decide
theorem aesr (k : Fin 16) : Statement (.aesr k) := by revert k; unfold Statement; decide
theorem aesrz : Statement .aesrz := by unfold Statement; decide
theorem fork : Statement .fork := by unfold Statement; decide
theorem bxork (k : Fin 16) : Statement (.bxork k) := by revert k; unfold Statement; decide
theorem baesr (k : Fin 16) : Statement (.baesr k) := by revert k; unfold Statement; decide
theorem baesrz : Statement .baesrz := by unfold Statement; decide
theorem mask (k : Fin 16) : Statement (.mask k) := by revert k; unfold Statement; decide
theorem fin : Statement .fin := by unfold Statement; decide

end Sys2Proof.Laws.Listing
end

