-- ==== Sys2Proof/Laws/Step.lean ====
section
/-! SUPPORT. What a step can do, once: reset, or the fetched op and the end of the host's entry. -/

namespace Sys2Proof.Machine

/-- If a step answers a next state it was a reset step, or it ran the op decoded from the fetched word. -/
theorem step_cases {s t : State} (h : step s = .next t) :
    (s.ports.rst = true ∧ t = s.applyReset.consumeInput) ∨
    (s.ports.rst = false ∧ ∃ cw i u, s.fetch = some cw ∧ decodeWord cw = .ok i ∧ exec i s = .next u ∧
      t = u.consumeInput) := by
  unfold step at h
  cases hr : s.ports.rst with
  | true =>
    simp only [hr, if_true] at h
    exact .inl ⟨rfl, by injection h with h; exact h.symm⟩
  | false =>
    simp only [hr, Bool.false_eq_true, if_false] at h
    unfold runFetched at h
    cases hf : s.fetch with
    | none => simp [hf] at h
    | some cw =>
      simp only [hf] at h
      cases hd : decodeWord cw with
      | error e => simp [hd] at h
      | ok i =>
        simp only [hd] at h
        cases he : exec i s with
        | next u =>
          simp only [he] at h
          injection h with h
          exact .inr ⟨rfl, cw, i, u, rfl, hd, he, h.symm⟩
        | fault r => simp [he] at h
        | refused r => simp [he] at h

/-- With the hardwired ROM a step runs the op at its address. -/
theorem step_of_romOp {s u : State} {i : Instr} (hrom : s.rom = []) (hrst : s.ports.rst = false)
    (hop : romOp s.step.toNat = some i) (hex : exec i s = .next u) : step s = .next u.consumeInput := by
  unfold romOp at hop
  unfold step runFetched State.fetch
  rw [hrom, hrst]
  cases hm : Memory.read [] s.step.toNat with
  | none => simp [hm] at hop
  | some cw =>
    cases hd : decodeWord cw with
    | error e => simp [hm, hd] at hop
    | ok j =>
      have hj : j = i := by simpa [hm, hd] using hop
      simp [hd, hj, hex]

/-- The host's run after a step that answers a next state. -/
theorem coreRun_succ_next {M : Host.Core} {s t : M.State} (n : Nat) (h : M.step s = .next t) :
    M.run (n + 1) s = M.run n t := by
  rw [Host.Core.run.eq_2, h]

/-- The host's run after a refused step. -/
theorem coreRun_succ_refused {M : Host.Core} {s : M.State} {r : M.Refusal} (n : Nat) (h : M.step s = .refused r) :
    M.run (n + 1) s = .refused r := by
  rw [Host.Core.run.eq_2, h]

/-- One more step at the front of a run. -/
theorem runFor_succ {s t : State} (n : Nat) (h : step s = .next t) : runFor (n + 1) s = runFor n t :=
  coreRun_succ_next (M := Sys2Proof.core) n h

/-- A run whose first step is refused is refused. -/
theorem runFor_refused {s : State} {r : Refusal} (n : Nat) (h : step s = .refused r) :
    runFor (n + 1) s = .refused r :=
  coreRun_succ_refused (M := Sys2Proof.core) n h

@[simp] theorem runFor_zero (s : State) : runFor 0 s = .next s := rfl

/-- A run is a run of some of its steps and then of the rest. -/
theorem runFor_add {s t : State} (m n : Nat) (h : runFor m s = .next t) : runFor (m + n) s = runFor n t := by
  induction m generalizing s with
  | zero =>
    rw [runFor_zero] at h
    injection h with h
    rw [h, Nat.zero_add]
  | succ m ih =>
    cases hs : step s with
    | next u =>
      rw [runFor_succ m hs] at h
      rw [Nat.succ_add, runFor_succ _ hs, ih h]
    | fault r => exact nomatch r
    | refused r =>
      rw [runFor_refused m hs] at h
      exact nomatch h

end Sys2Proof.Machine
end

