-- ==== Sys2Proof/Laws/Syntax.lean ====
section
/-! SUPPORT. Every instruction is well formed, and the reading of an instruction's index. -/

namespace Sys2Proof

/-- An `Instr` carries an index 0..15 by its type, so its listing line is well formed (R66, R72). -/
theorem Instr.wf_all (i : Instr) : i.wf = true := by
  cases i <;> simp [Instr.wf, Line.wf, Instr.line, Instr.mnemonic, Instr.index, Mnemonic.formatK]

/-- A byte is the word with its own `op` and `k` fields (R66). -/
theorem toNat_eq_fields (cw : Byte) : cw.toNat = 16 * opField cw + (kField cw).val := by
  simp only [opField, kField]
  omega

/-- `op` is a nibble (R66). -/
theorem opField_lt (cw : Byte) : opField cw < 16 := by
  have := cw.isLt
  simp only [opField]
  omega

end Sys2Proof
end

