-- ==== Sys2Proof/Tests/Slice0.lean ====
section
/-! SUPPORT. The model's own tests. Every expected value is the spec's: the example of the op's rule, or a vector of
spec/95_test_vectors.md, named in the test's docstring. The second half shows, for every obligation with hypotheses, a
state and operands that meet them. -/

namespace Sys2Proof.Tests

open Sys2Proof Sys2Proof.Machine

/-! ## Well-formedness: each check refuses an ill-formed term -/

/-- A format-K op without its index (R65). -/
theorem smoke_missing_index : (Line.mk none .rtk none none).wf = false := by decide
/-- An index above 15 (R66). -/
theorem smoke_index_16 : (Line.mk none .aesr (some 16) none).wf = false := by decide
/-- A format-Z op with an index (R65). -/
theorem smoke_index_on_format_z : (Line.mk none .fork (some 0) none).wf = false := by decide
/-- A pseudo-instruction with an operand (R73). -/
theorem smoke_index_on_pseudo : (Line.mk none .sched (some 1) none).wf = false := by decide
/-- A ROM address above 68 (R69). -/
theorem smoke_address_69 : (Line.mk (some 69) .fin none none).wf = false := by decide
/-- The largest index and address are well formed. -/
theorem smoke_accepts_largest : (Line.mk (some 68) .mask (some 15) none).wf = true := by decide
/-- A reserved low nibble and a reserved `op` (R68). -/
theorem smoke_reserved_words : wordDefined 0x01 = false ∧ wordDefined 0xcf = false ∧ wordDefined 0xd0 = false := by decide
/-- Listing text as R72 writes it. -/
theorem test_listing_text : (Instr.baesr 14).line.text = "BAESR 14" ∧ (Line.mk (some 1) .rtk (some 0) (some "first")).text =
    "1: RTK 0 ; first" := by decide

/-! ## Decoding: one word for each constructor, bit by bit from R65 and R67 -/

theorem test_decode_wait : decodeWord 0b00000000 = .ok .wait := by decide
theorem test_decode_rtk : decodeWord 0b00011100 = .ok (.rtk 12) := by decide
theorem test_decode_tkh : decodeWord 0b00100000 = .ok .tkh := by decide
theorem test_decode_tkg : decodeWord 0b00110000 = .ok .tkg := by decide
theorem test_decode_xork : decodeWord 0b01001111 = .ok (.xork 15) := by decide
theorem test_decode_aesr : decodeWord 0b01010110 = .ok (.aesr 6) := by decide
theorem test_decode_aesrz : decodeWord 0b01100000 = .ok .aesrz := by decide
theorem test_decode_fork : decodeWord 0b01110000 = .ok .fork := by decide
theorem test_decode_bxork : decodeWord 0b10000111 = .ok (.bxork 7) := by decide
theorem test_decode_baesr : decodeWord 0b10011110 = .ok (.baesr 14) := by decide
theorem test_decode_baesrz : decodeWord 0b10100000 = .ok .baesrz := by decide
theorem test_decode_mask : decodeWord 0b10111111 = .ok (.mask 15) := by decide
theorem test_decode_fin : decodeWord 0b11000000 = .ok .fin := by decide
theorem test_decode_table_word : decodeTableWord 8 0x9e = some (.baesr 14) ∧ decodeTableWord 8 0xd0 = none := by decide

/-! ## One step of each op, on the example of its rule -/

/-- The next state, or the state itself where there is none. -/
def after (i : Instr) (s : State) : State :=
  match exec i s with
  | .next t => t
  | .fault _ => s
  | .refused _ => s

/-- The fork state of the source's known-answer vector (spec/95_test_vectors.md section 2.1). -/
def forkBlock : Block := #v[0x11, 0xe9, 0x9a, 0x62, 0x98, 0x99, 0x52, 0x98, 0x60, 0x39, 0x89, 0xd0, 0x35, 0x81, 0xae, 0xae]

/-- A host that presents the inputs of the example of R136. -/
def startInput : HostInput :=
  { rst := false, start := true,
    mIn := #v[0x01, 0x23, 0x45, 0x67, 0x00, 0x00, 0x00, 0x00, 0x00, 0x00, 0x00, 0x00, 0x00, 0x00, 0x00, 0x00],
    tIn := #v[0x89, 0xab, 0xcd, 0xef, 0x00, 0x00, 0x00, 0x00, 0x00, 0x00, 0x00, 0x00, 0x00, 0x00, 0x00, 0x00],
    kIn := #v[0xfe, 0xdc, 0xba, 0x98, 0x00, 0x00, 0x00, 0x00, 0x00, 0x00, 0x00, 0x00, 0x00, 0x00, 0x00, 0x00] }

/-- The idle state with that host. -/
def starting : State := State.reset.setInputs [startInput]

/-- R136, its example. -/
theorem test_wait_accepts : (after .wait starting).S = #v[0x01, 0x23, 0x45, 0x67, 0x00, 0x00, 0x00, 0x00, 0x00, 0x00, 0x00, 0x00, 0x00, 0x00, 0x00, 0x00] ∧
    (after .wait starting).TK1 = startInput.tIn ∧ (after .wait starting).TK2 = startInput.kIn ∧
    (after .wait starting).busy = true ∧ (after .wait starting).step = 1 := by decide
/-- R136, `start = 0`: spec/95_test_vectors.md section 3.7 line 2. -/
theorem test_wait_idles : after .wait State.reset = State.reset := by decide
/-- R110, its example with `k` = 0. -/
theorem test_rtk_0 :
    (after (.rtk 0) ((State.reset.setTK1 #v[0x10, 0x11, 0x12, 0x13, 0x14, 0x15, 0x16, 0x17, 0x18, 0x19, 0x1a, 0x1b, 0x1c, 0x1d, 0x1e, 0x1f]).setTK2
      #v[0x20, 0x21, 0x22, 0x23, 0x24, 0x25, 0x26, 0x27, 0x28, 0x29, 0x2a, 0x2b, 0x2c, 0x2d, 0x2e, 0x2f])).RTK[0] =
    #v[0x31, 0x32, 0x34, 0x38, 0x1f, 0x1f, 0x1f, 0x1f, 0x30, 0x30, 0x30, 0x30, 0x30, 0x30, 0x30, 0x30] := by decide
/-- R110, its example with `k` = 15. -/
theorem test_rtk_15 :
    (after (.rtk 15) ((State.reset.setTK1 #v[0x10, 0x11, 0x12, 0x13, 0x14, 0x15, 0x16, 0x17, 0x18, 0x19, 0x1a, 0x1b, 0x1c, 0x1d, 0x1e, 0x1f]).setTK2
      #v[0x20, 0x21, 0x22, 0x23, 0x24, 0x25, 0x26, 0x27, 0x28, 0x29, 0x2a, 0x2b, 0x2c, 0x2d, 0x2e, 0x2f])).RTK[15] =
    #v[0x31, 0x32, 0x34, 0x38, 0x09, 0x09, 0x09, 0x09, 0x30, 0x30, 0x30, 0x30, 0x30, 0x30, 0x30, 0x30] := by decide
/-- R111, its example: the direction of `PERM`. -/
theorem test_tkh :
    (after .tkh (State.reset.setTK2 #v[0xfe, 0xdc, 0xba, 0x98, 0x00, 0x00, 0x00, 0x00, 0x00, 0x00, 0x00, 0x00, 0x00, 0x00, 0x00, 0x00])).TK2 =
    #v[0x00, 0xfe, 0x00, 0x00, 0x00, 0x00, 0xdc, 0x00, 0x00, 0x00, 0x00, 0xba, 0x98, 0x00, 0x00, 0x00] := by decide
/-- R112, its example. -/
theorem test_tkg :
    (after .tkg (State.reset.setTK1 #v[0x00, 0x89, 0x00, 0x00, 0x00, 0x00, 0xab, 0x00, 0x00, 0x00, 0x00, 0xcd, 0xef, 0x00, 0x00, 0x00])).TK1 =
    #v[0x00, 0x13, 0x00, 0x00, 0x00, 0x00, 0x56, 0x00, 0x00, 0x00, 0x00, 0x9b, 0xde, 0x00, 0x00, 0x00] := by decide
/-- R90, its example. -/
theorem test_xork :
    (after (.xork 0) (State.reset.writeRTK 0 #v[0x01, 0x02, 0x04, 0x08, 0x2f, 0x2f, 0x2f, 0x2f, 0x00, 0x00, 0x00, 0x00, 0x00, 0x00, 0x00, 0x00])).S =
    #v[0x01, 0x02, 0x04, 0x08, 0x2f, 0x2f, 0x2f, 0x2f, 0x00, 0x00, 0x00, 0x00, 0x00, 0x00, 0x00, 0x00] := by decide
/-- R91, its example. -/
theorem test_aesr :
    (after (.aesr 1) ((State.reset.setS #v[0x01, 0x02, 0x04, 0x08, 0x2f, 0x2f, 0x2f, 0x2f, 0x00, 0x00, 0x00, 0x00, 0x00, 0x00, 0x00, 0x00]).writeRTK 1
      #v[0x01, 0x02, 0x04, 0x08, 0x5e, 0x5e, 0x5e, 0x5e, 0x00, 0x00, 0x00, 0x00, 0x00, 0x00, 0x00, 0x00])).S =
    #v[0xc6, 0x92, 0x0e, 0x3c, 0x82, 0x18, 0xbe, 0x01, 0x84, 0xbd, 0xc0, 0x1e, 0x29, 0xd1, 0x9b, 0x01] := by decide
/-- R92, its example. -/
theorem test_aesrz :
    (after .aesrz (State.reset.setS #v[0xa0, 0x52, 0x3e, 0xed, 0xb9, 0x2f, 0x85, 0x94, 0x57, 0xe5, 0x05, 0xa7, 0x6b, 0x59, 0xe3, 0xdf])).S =
    forkBlock := by decide
/-- R137, its example. -/
theorem test_fork : (after .fork (State.reset.setS forkBlock)).F = forkBlock ∧
    (after .fork (State.reset.setS forkBlock)).B[7] = forkBlock := by decide
/-- R138, its example, lanes 0 and 7. -/
theorem test_bxork :
    let t := after (.bxork 7) ((State.reset.setB (Vector.ofFn fun _ => forkBlock)).writeRTK 7
      #v[0x01, 0x02, 0x04, 0x08, 0x6a, 0x6a, 0x6a, 0x6a, 0x00, 0x00, 0x00, 0x00, 0x00, 0x00, 0x00, 0x00])
    t.B[0] = #v[0x10, 0xeb, 0x9e, 0x6a, 0xf2, 0xf3, 0x38, 0xf2, 0x61, 0x38, 0x88, 0xd1, 0x35, 0x81, 0xae, 0xae] ∧
    t.B[7] = #v[0x10, 0xeb, 0x9e, 0x6a, 0xf2, 0xf3, 0x38, 0xf2, 0x68, 0x31, 0x81, 0xd8, 0x35, 0x81, 0xae, 0xae] := by decide
/-- R139, its example, lane 0. -/
theorem test_baesr_lane_0 :
    (after (.baesr 8) ((State.reset.setB (Vector.ofFn fun _ =>
      #v[0x10, 0xeb, 0x9e, 0x6a, 0xf2, 0xf3, 0x38, 0xf2, 0x61, 0x38, 0x88, 0xd1, 0x35, 0x81, 0xae, 0xae])).writeRTK 8
      #v[0x01, 0x02, 0x04, 0x08, 0xd4, 0xd4, 0xd4, 0xd4, 0x00, 0x00, 0x00, 0x00, 0x00, 0x00, 0x00, 0x00])).B[0] =
    #v[0xb9, 0x61, 0x67, 0x57, 0x32, 0x66, 0x8f, 0xb3, 0x52, 0x62, 0x74, 0x25, 0x2e, 0x68, 0x33, 0x33] := by decide
/-- R139 on lane 7 (spec/95_test_vectors.md section 2.1): the lane's own constant. -/
theorem test_baesr_lane_7 :
    (after (.baesr 8) ((State.reset.setB (Vector.ofFn fun _ =>
      #v[0x10, 0xeb, 0x9e, 0x6a, 0xf2, 0xf3, 0x38, 0xf2, 0x68, 0x31, 0x81, 0xd8, 0x35, 0x81, 0xae, 0xae])).writeRTK 8
      #v[0x01, 0x02, 0x04, 0x08, 0xd4, 0xd4, 0xd4, 0xd4, 0x00, 0x00, 0x00, 0x00, 0x00, 0x00, 0x00, 0x00])).B[7] =
    #v[0x71, 0x22, 0xec, 0x9f, 0x69, 0xfd, 0x4f, 0x73, 0x14, 0xc1, 0xd7, 0xc9, 0x71, 0x37, 0xd2, 0x8d] := by decide
/-- R140, its example. -/
theorem test_baesrz :
    (after .baesrz (State.reset.setB (Vector.ofFn fun _ =>
      #v[0x0a, 0xbe, 0x38, 0x77, 0x93, 0xe4, 0x40, 0x2b, 0x84, 0x1b, 0x0d, 0x15, 0x91, 0xa1, 0xc8, 0xce]))).B[0] =
    #v[0x29, 0x5c, 0x3d, 0x1a, 0x54, 0x4f, 0xbc, 0xc9, 0x1e, 0xc3, 0x6b, 0x2d, 0xa0, 0x84, 0xd6, 0x8d] := by decide

/-- The lanes 0 and 7 before `MASK 15` of the known-answer vector; the others are not looked at. -/
def beforeMask : State :=
  ((State.reset.setF forkBlock).mapLanes fun i _ =>
    if i = 7 then #v[0x10, 0xf7, 0xdf, 0x30, 0x0d, 0x39, 0x85, 0x87, 0xa6, 0xfd, 0x52, 0x3b, 0xc5, 0x8c, 0x4c, 0x22]
    else #v[0x29, 0x5c, 0x3d, 0x1a, 0x54, 0x4f, 0xbc, 0xc9, 0x1e, 0xc3, 0x6b, 0x2d, 0xa0, 0x84, 0xd6, 0x8d]).writeRTK 15
    #v[0x01, 0x02, 0x04, 0x08, 0x39, 0x39, 0x39, 0x39, 0x00, 0x00, 0x00, 0x00, 0x00, 0x00, 0x00, 0x00]

/-- R141, its example: bytes 0, 8 and 15 of branch 0 of the source's known-answer vector. -/
theorem test_mask_lane_0 :
    let t := after (.mask 15) beforeMask
    t.OUT[0] = 0x39 ∧ t.OUT[8] = 0x7f ∧ t.OUT[15] = 0x23 := by decide
/-- R141 on lane 7: bytes 0, 8 and 15 of branch 7 of the source's known-answer vector, in the last slot. -/
theorem test_mask_lane_7 :
    let t := after (.mask 15) beforeMask
    t.OUT[112] = 0x00 ∧ t.OUT[120] = 0xce ∧ t.OUT[127] = 0x8c := by decide
/-- R142: `FIN` keeps `OUT`, clears the rest and reports. -/
theorem test_fin :
    let t := after .fin (((beforeMask.setOUT (Vector.replicate 128 0x5a)).setStep 68).setBusy true)
    t.OUT[127] = 0x5a ∧ t.F = Block.zero ∧ t.RTK[15] = Block.zero ∧ t.B[7] = Block.zero ∧ t.busy = false ∧
    t.done = true ∧ t.step = 0 := by decide

/-! ## The functions, on vectors of spec/95_test_vectors.md -/

/-- Section 3.1, the FIPS-197 round. -/
theorem test_aes_round :
    aesRound #v[0x00, 0x10, 0x20, 0x30, 0x40, 0x50, 0x60, 0x70, 0x80, 0x90, 0xa0, 0xb0, 0xc0, 0xd0, 0xe0, 0xf0]
      #v[0xd6, 0xaa, 0x74, 0xfd, 0xd2, 0xaf, 0x72, 0xfa, 0xda, 0xa6, 0x78, 0xf1, 0xd6, 0xab, 0x76, 0xfe] =
    #v[0x89, 0xd8, 0x10, 0xe8, 0x85, 0x5a, 0xce, 0x68, 0x2d, 0x18, 0x43, 0xd8, 0xcb, 0x12, 0x8f, 0xe4] := by decide
/-- Section 2.2, V2: the last round tweakey, which needs the direction of `PERM` and the half that `G` acts on. -/
theorem test_schedule_v2 :
    roundTweakey startInput.tIn startInput.kIn 15 =
    #v[0x50, 0x02, 0x04, 0x08, 0x39, 0x39, 0x39, 0x4e, 0x00, 0x00, 0x95, 0x00, 0x00, 0xb3, 0x00, 0x00] := by decide
set_option maxRecDepth 4000 in
/-- Section 2.1, V1: the trunk, message to fork state, with the round tweakeys of section 1.1. -/
theorem test_known_answer_trunk :
    forkState Block.zero (Vector.ofFn roundConstantBlock) = forkBlock := by decide
set_option maxRecDepth 4000 in
/-- Section 2.1, V1: the tail of lane 0, fork state to the end of `BAESRZ`. -/
theorem test_known_answer_tail :
    branchState forkBlock (Vector.ofFn roundConstantBlock) 0 =
    #v[0x29, 0x5c, 0x3d, 0x1a, 0x54, 0x4f, 0xbc, 0xc9, 0x1e, 0xc3, 0x6b, 0x2d, 0xa0, 0x84, 0xd6, 0x8d] := by decide

/-! ## The step -/

/-- Section 3.7 line 10: `rst` wins over `start`. -/
theorem test_reset_wins : (match step (starting.setInputs [{ startInput with rst := true }]) with
    | .next t => decide (t = State.reset) | .fault _ => false | .refused _ => false) = true := by decide
/-- R69, P2: at address 1 the ROM holds `RTK 0`. -/
theorem test_step_fetches_rom : (match step (State.reset.setStep 1) with
    | .next t => decide (t.step = 2 ∧ t.RTK[0] = #v[1, 2, 4, 8, 0x2f, 0x2f, 0x2f, 0x2f, 0, 0, 0, 0, 0, 0, 0, 0])
    | .fault _ => false | .refused _ => false) = true := by decide
/-- R68, U2: no control word at 69. -/
theorem test_step_refuses_69 : (match step (State.reset.setStep 69) with
    | .next _ => false | .fault _ => false | .refused r => decide (r = .noControlWord 69)) = true := by decide
/-- R68, U1: a reserved word is refused, not skipped. -/
theorem test_step_refuses_reserved : (match step (State.reset.withFetchWord 8 0xd0) with
    | .next _ => false | .fault _ => false | .refused r => decide (r = .reservedOp 0xd0)) = true := by decide
/-- A word the ROM does not hold runs where it is placed; R90. -/
theorem test_placed_word_runs : (match step (State.reset.withFetchWord 8 0x4f) with
    | .next t => decide (t.step = 1 ∧ t.rom = [(0, 0x4f)]) | .fault _ => false | .refused _ => false) = true := by decide
/-- Placing the hardwired word leaves the canonical list empty. -/
theorem test_placing_hardwired_word : State.reset.withFetchWord 8 0x00 = State.reset := by decide
/-- The memory of the state after reset is in canonical form. -/
theorem test_reset_memory_wf : Memory.wf State.reset.rom = true := by decide

/-! ## Witnesses: the hypotheses of the obligations are met -/

/-- Two different inputs with `rst` low. -/
def quiet : HostInput := HostInput.idle

theorem witness_OnlyEncodingsDecode : decode [0x1c, 0x07] = .ok (.rtk 12, [0x07]) := by decide
theorem witness_DecodeFollowsMatchAndMask : (Instr.mask 15).index = some 15 ∧ decodeWord 0xbf = .ok (.mask 15) := by decide
theorem witness_ControlWordsDivideAsTabled :
    ((0xbf : Byte).toNat / 16 ∈ [1, 4, 5, 8, 9, 11]) ∧
    ((0xc0 : Byte).toNat / 16 ∈ [0, 2, 3, 6, 7, 10, 12] ∧ (0xc0 : Byte).toNat % 16 = 0) ∧
    ((0xc1 : Byte).toNat / 16 ∈ [0, 2, 3, 6, 7, 10, 12] ∧ (0xc1 : Byte).toNat % 16 ≠ 0) ∧
    13 ≤ (0xd0 : Byte).toNat / 16 := by decide
theorem witness_ControlRomHoldsTabledWords : 69 ≤ 69 ∧ Memory.read [] 68 = some 0xc0 := by decide
theorem witness_PseudoInstructionsExpandToRom : 0 < 48 ∧ 47 < 48 := by decide
theorem witness_PlacedWordIsRunNext : decodeTableWord 8 0x4f = some (.xork 15) := by decide
theorem witness_StepRunsDecodedOp : State.reset.ports.rst = false ∧
    Memory.read State.reset.rom State.reset.step.toNat = some 0x00 ∧ decodeWord 0x00 = .ok .wait := by decide
theorem witness_StepRefusesBeyondRom : (State.reset.setStep 69).ports.rst = false ∧
    68 < (State.reset.setStep 69).step.toNat ∧ 68 < (State.reset.setStep 127).step.toNat := by decide
theorem witness_StepRefusesReservedOp :
    let s := State.reset.withFetchWord 8 0xd0
    s.ports.rst = false ∧ Memory.read s.rom s.step.toNat = some 0xd0 ∧ 13 ≤ (0xd0 : Byte).toNat / 16 := by decide
theorem witness_StepRefusesReservedLowNibble :
    let s := State.reset.withFetchWord 8 0xc1
    s.ports.rst = false ∧ Memory.read s.rom s.step.toNat = some 0xc1 ∧
      (0xc1 : Byte).toNat / 16 ∈ [0, 2, 3, 6, 7, 10, 12] ∧ (0xc1 : Byte).toNat % 16 ≠ 0 := by decide
theorem witness_ResetStepClearsEverything :
    (beforeMask.setInputs [{ startInput with rst := true }]).ports.rst = true ∧ beforeMask.rom = [] ∧
    (beforeMask.setInputs []).ports.rst = false := by decide
theorem witness_CoreIsTotal : State.reset.rom = [] ∧ State.reset.step.toNat ≤ 68 ∧
    (State.reset.setStep 68).step.toNat ≤ 68 := by decide
theorem witness_NoStepWritesTheRom : step State.reset = .next (after .wait State.reset).consumeInput := rfl
theorem witness_StepCounterAdvances : starting.ports.start = true ∧ State.reset.ports.start = false ∧
    Instr.tkh ≠ .wait ∧ Instr.tkh ≠ .fin := by decide
theorem witness_OnlyWaitAndFinWriteStatus : exec .wait starting = .next (after .wait starting) ∧
    (after .wait starting).busy ≠ starting.busy := ⟨rfl, by decide⟩
theorem witness_OnlyWaitAndFinWriteStatus_fin : exec .fin State.reset = .next (after .fin State.reset) ∧
    (after .fin State.reset).done ≠ State.reset.done := ⟨rfl, by decide⟩
theorem witness_EachRegisterHasItsWriters :
    (after .wait starting).S ≠ starting.S ∧ (after .wait starting).TK1 ≠ starting.TK1 ∧
    (after .wait starting).TK2 ≠ starting.TK2 ∧ (after (.rtk 15) State.reset).RTK[15] ≠ State.reset.RTK[15] := by
  decide
theorem witness_EachRegisterHasItsWriters_tail :
    let s := State.reset.setS forkBlock
    (after .fork s).F ≠ s.F ∧ (after .fork s).B ≠ s.B ∧ (after (.mask 0) s).OUT ≠ s.OUT :=
  ⟨by decide,
    fun h => absurd (congrArg (fun b => b[7]) h) (by decide),
    fun h => absurd (congrArg (fun o => o[120]) h) (by decide)⟩
theorem witness_BusyIgnoresTheInputPorts :
    (State.reset.setStep 1).rom = [] ∧ (State.reset.setStep 1).step ≠ 0 ∧ (State.reset.setStep 1).step.toNat ≤ 68 ∧
    (State.reset.setStep 68).step ≠ 0 ∧ (State.reset.setStep 68).step.toNat ≤ 68 ∧
    startInput.rst = false ∧ quiet.rst = false ∧ startInput ≠ quiet := by decide
theorem witness_IdleStaysIdle :
    let s := State.reset.setInputs [{ startInput with start := false }, startInput]
    s.rom = [] ∧ s.step = 0 ∧ ∀ p ∈ s.inputs.take 1, p.rst = false ∧ p.start = false := by decide
theorem witness_WaitLoadsOrIdles : starting.ports.start = true ∧ State.reset.ports.start = false ∧
    State.reset.step = 0 ∧ Instr.fin ≠ .wait := by decide
theorem witness_RtkAssemblesOneTweakey : State.reset.TK1 = State.reset.TK2 := by decide
theorem witness_TkhPermutesBothHalves : (∀ i j : Fin 16, State.reset.TK1[i] = State.reset.TK1[j]) ∧
    ∀ i j : Fin 16, State.reset.TK2[i] = State.reset.TK2[j] := by simp
theorem witness_TkgStepsFirstHalf : State.reset.TK1 = Block.zero := rfl
theorem witness_XorkAddsTweakeyToTrunk : State.reset.RTK[(3 : Fin 16)] = Block.zero := by decide
theorem witness_BxorkAddsBranchKeys : ∀ i j : Fin 8, State.reset.B[i] = State.reset.B[j] := by simp
theorem witness_LanesDoNotInteract :
    beforeMask.B[(0 : Fin 8)] = (beforeMask.setS forkBlock).B[(0 : Fin 8)] ∧
    beforeMask.RTK[(15 : Fin 16)] = (beforeMask.setS forkBlock).RTK[(15 : Fin 16)] ∧
    beforeMask.F = (beforeMask.setS forkBlock).F := by decide
theorem witness_SboxIsTheGeneratedPermutation : (0x53 : Byte) ≠ 0 ∧ sbox 0x53 = 0xed := by decide
theorem witness_GfMultipliers : (0x80 : Byte).getLsbD 7 = true ∧ (0x7f : Byte).getLsbD 7 = false := by decide
theorem witness_MixColumnsByColumn :
    ∀ r : Fin 4, forkBlock[4 * (0 : Fin 4).val] ≠ 0 ∧ Block.zero[4 * (3 : Fin 4).val + r.val] = Block.zero[12] := by decide
theorem witness_GLfsrBits : 0 < 7 ∧ 6 < 7 := by decide
theorem witness_BranchKeysDifferByLane : (0 : Fin 8) ≠ 7 ∧ (7 : Fin 16).val < 8 ∧ 11 < (12 : Fin 16).val := by decide
theorem witness_PortsPackLowByteFirst : 0 < 8 ∧ 7 < 8 := by decide
theorem witness_InvariantAtLaunch : Launch starting := ⟨[startInput], rfl⟩

/-- The invariant holds of the idle state with a host that starts. -/
theorem witness_InvariantKeptByEveryStep : CoreInv starting where
  rom := rfl
  step_le := by decide
  busy_iff := by decide
  done_idle := by decide
  idle_zero := fun _ => ⟨rfl, rfl, rfl, rfl, by simp [starting], by simp [starting]⟩
  idle_out := fun _ _ => by simp [starting]

/-- An idle state whose registers hold something, under a host that starts and then drives other levels. -/
def startingFull : State :=
  (beforeMask.setStep 0).setInputs [startInput, { HostInput.idle with start := true }]

theorem witness_Accepts : Accepts starting startInput.mIn startInput.tIn startInput.kIn :=
  ⟨rfl, rfl, rfl, rfl, rfl, rfl, rfl⟩
theorem witness_Accepts_full : Accepts startingFull startInput.mIn startInput.tIn startInput.kIn :=
  ⟨rfl, rfl, rfl, rfl, rfl, rfl, rfl⟩

/-- EvaluationGivesEval. -/
theorem witness_EvaluationGivesEval : Accepts startingFull startInput.mIn startInput.tIn startInput.kIn ∧
    NoResetFor 69 startingFull ∧ 1 ≤ 68 ∧ 68 ≤ 68 :=
  ⟨witness_Accepts_full, by simp [NoResetFor, startingFull, startInput, HostInput.idle], by decide, by decide⟩
/-- EvaluationPassesEachAddress, at both ends of the range of `n`. -/
theorem witness_EvaluationPassesEachAddress : Accepts startingFull startInput.mIn startInput.tIn startInput.kIn ∧
    NoResetFor 1 startingFull ∧ NoResetFor 68 startingFull :=
  ⟨witness_Accepts_full, by simp [NoResetFor, startingFull, startInput],
    by simp [NoResetFor, startingFull, startInput, HostInput.idle]⟩
/-- EvaluationForgetsOldState. -/
theorem witness_EvaluationForgetsOldState :
    Accepts starting startInput.mIn startInput.tIn startInput.kIn ∧ NoResetFor 69 starting ∧
    Accepts startingFull startInput.mIn startInput.tIn startInput.kIn ∧ NoResetFor 69 startingFull ∧
    starting.S = startingFull.S ∧ starting.F ≠ startingFull.F :=
  ⟨witness_Accepts, by simp [NoResetFor, starting, startInput], witness_Accepts_full,
    by simp [NoResetFor, startingFull, startInput, HostInput.idle], by decide, by decide⟩
/-- ViewHidesDataUntilMask: two different inputs. -/
theorem witness_ViewHidesDataUntilMask :
    Accepts starting startInput.mIn startInput.tIn startInput.kIn ∧
    Accepts (starting.setInputs [{ quiet with start := true }]) Block.zero Block.zero Block.zero ∧
    starting.OUT = (starting.setInputs [{ quiet with start := true }]).OUT ∧
    NoResetFor 67 starting ∧ NoResetFor 67 (starting.setInputs [{ quiet with start := true }]) :=
  ⟨witness_Accepts, ⟨rfl, rfl, rfl, rfl, rfl, rfl, rfl⟩, rfl, by simp [NoResetFor, starting, startInput],
    by simp [NoResetFor, quiet, HostInput.idle]⟩

/-- DoneMeansLastResult: the pair after reset, which is reachable. -/
theorem witness_DoneMeansLastResult_launch : ReachableWith starting none ∧ LastInv starting none :=
  ⟨.launch ⟨[startInput], rfl⟩,
    { core := witness_InvariantKeptByEveryStep
      done_result := fun h => absurd h (by decide)
      fresh_none := fun _ _ => rfl
      running := fun h => absurd rfl h }⟩

/-- An idle state that reports the result of the inputs of R136's example. -/
def finished : State := (State.reset.setOUT (eval startInput.mIn startInput.tIn startInput.kIn)).setDone true

/-- DoneMeansLastResult: a pair that reports a result. -/
theorem witness_DoneMeansLastResult_done : LastInv finished (some (startInput.mIn, startInput.tIn, startInput.kIn)) where
  core :=
    { rom := rfl
      step_le := by decide
      busy_iff := by decide
      done_idle := fun _ => rfl
      idle_zero := fun _ => ⟨rfl, rfl, rfl, rfl, by simp [finished], by simp [finished]⟩
      idle_out := fun _ h => absurd h (by decide) }
  done_result := fun _ => ⟨_, _, _, rfl, rfl⟩
  fresh_none := fun _ h => absurd h (by decide)
  running := fun h => absurd rfl h

/-- DoneMeansLastResult: a pair in the middle of an evaluation, with `RTK 0` next. -/
theorem witness_DoneMeansLastResult_running :
    LastInv starting.acceptStart (some (startInput.mIn, startInput.tIn, startInput.kIn)) where
  core :=
    { rom := rfl
      step_le := by decide
      busy_iff := by decide
      done_idle := fun h => absurd h (by decide)
      idle_zero := fun h => absurd h (by decide)
      idle_out := fun h => absurd h (by decide) }
  done_result := fun h => absurd h (by decide)
  fresh_none := fun h => absurd h (by decide)
  running := fun _ => ⟨_, _, _, starting, rfl, witness_InvariantKeptByEveryStep, rfl,
    { S := rfl, TK1 := rfl, TK2 := rfl, F := rfl, B := fun _ => rfl, OUT := rfl
      RTK := fun r => by
        have h : ¬ 1 + 3 * r.val < starting.acceptStart.step.toNat := by
          have h1 : starting.acceptStart.step.toNat = 1 := rfl
          omega
        rw [if_neg h]
        rfl }⟩

/-- InstancesDoNotInteract: two instances and three steps. -/
theorem witness_InstancesDoNotInteract :
    (∀ n ∈ [0, 1, 0], n < [State.reset, starting].length) ∧
    (∃ t, runFor ([0, 1, 0].count 0) State.reset = .next t) ∧ (∃ t, runFor ([0, 1, 0].count 1) starting = .next t) ∧
    ∀ s ∈ [starting], CoreInv s :=
  ⟨by decide, ⟨_, rfl⟩, ⟨_, rfl⟩, by simpa using witness_InvariantKeptByEveryStep⟩
/-- InstancesDoNotInteract: an instance that is given the 69 steps of its evaluation. -/
theorem witness_InstancesDoNotInteract_evaluation :
    Accepts startingFull startInput.mIn startInput.tIn startInput.kIn ∧ NoResetFor 69 startingFull ∧
    (List.replicate 69 1).count 1 = 69 :=
  ⟨witness_Accepts_full, witness_EvaluationGivesEval.2.1, by decide⟩

end Sys2Proof.Tests
end

section
/-! SUPPORT. The state after reset, register by register (spec/10_state.md R25). -/

namespace Sys2Proof.Machine

/-- R25's rows for `S`, `F`, `TK1`, `TK2`, `RTK` and `B`. -/
theorem internalZero_reset : InternalZero State.reset where
  S := State.reset_S
  F := State.reset_F
  TK1 := State.reset_TK1
  TK2 := State.reset_TK2
  RTK r := by rw [State.reset_RTK, Fin.getElem_fin, Vector.getElem_replicate]
  B i := by rw [State.reset_B, Fin.getElem_fin, Vector.getElem_replicate]

/-- R25's row for `OUT`. -/
theorem reset_OUT_getElem (a : Fin 128) : State.reset.OUT[a] = 0 := by
  rw [State.reset_OUT, Fin.getElem_fin, Vector.getElem_replicate]

/-- Settles O12: R25's table, row by row from the laws of the reset state. -/
theorem resetValues : Obligations.ResetValues :=
  ⟨internalZero_reset, reset_OUT_getElem, State.reset_step, State.reset_busy, State.reset_done⟩

end Sys2Proof.Machine
end

section
/-! SUPPORT. The packing of byte ports into wires, bit by bit (spec/20_memory.md R45). -/

namespace Sys2Proof.Machine

theorem packBytes_cons (x : Byte) (xs : List Byte) : packBytes (x :: xs) = 2 ^ 8 * packBytes xs + x.toNat := by
  simp only [packBytes, List.foldr_cons]
  omega

/-- R45 on the number: each byte further along the list stands eight bits higher. -/
theorem testBit_packBytes (l : List Byte) (j b : Nat) (hj : j < l.length) (hb : b < 8) :
    (packBytes l).testBit (8 * j + b) = l[j].getLsbD b := by
  induction l generalizing j with
  | nil => exact absurd hj (Nat.not_lt_zero j)
  | cons x xs ih =>
    rw [packBytes_cons, Nat.testBit_two_pow_mul_add _ x.isLt]
    cases j with
    | zero => simp [hb, BitVec.testBit_toNat]
    | succ j =>
      have above : ¬ 8 * (j + 1) + b < 8 := by omega
      have shift : 8 * (j + 1) + b - 8 = 8 * j + b := by omega
      rw [if_neg above, shift, List.getElem_cons_succ]
      exact ih j (Nat.lt_of_succ_lt_succ hj)

/-- R45 for a port of `n` bytes drawn as a vector of `8n` bits: no byte is cut off. -/
theorem getLsbD_ofNat_packBytes {n : Nat} (v : Vector Byte n) (j : Fin n) (b : Nat) (hb : b < 8) :
    (BitVec.ofNat (8 * n) (packBytes v.toList)).getLsbD (8 * j.val + b) = v[j].getLsbD b := by
  have inside : 8 * j.val + b < 8 * n := by omega
  rw [BitVec.getLsbD_ofNat, decide_eq_true inside, Bool.true_and,
    testBit_packBytes _ _ _ (by simp) hb, Vector.getElem_toList, Fin.getElem_fin]

theorem packBlock_getLsbD (X : Block) (j : Fin 16) (b : Nat) (hb : b < 8) :
    (packBlock X).getLsbD (8 * j.val + b) = X[j].getLsbD b :=
  getLsbD_ofNat_packBytes X j b hb

theorem packOut_getLsbD (o : Vector Byte 128) (a : Fin 128) (b : Nat) (hb : b < 8) :
    (packOut o).getLsbD (8 * a.val + b) = o[a].getLsbD b :=
  getLsbD_ofNat_packBytes o a b hb

theorem unpackBlock_getLsbD (v : BitVec 128) (j : Fin 16) (b : Nat) (hb : b < 8) :
    (unpackBlock v)[j].getLsbD b = v.getLsbD (8 * j.val + b) := by
  rw [unpackBlock, Fin.getElem_fin, Vector.getElem_ofFn, BitVec.getLsbD_extractLsb', decide_eq_true hb, Bool.true_and]

theorem unpackBlock_packBlock (X : Block) : unpackBlock (packBlock X) = X := by
  refine Vector.ext fun j hj => BitVec.eq_of_getLsbD_eq fun b hb => ?_
  exact (unpackBlock_getLsbD _ ⟨j, hj⟩ b hb).trans (packBlock_getLsbD X ⟨j, hj⟩ b hb)

/-- Vector bit `i` is bit `i % 8` of byte `i / 8`. -/
theorem packBlock_unpackBlock (v : BitVec 128) : packBlock (unpackBlock v) = v := by
  refine BitVec.eq_of_getLsbD_eq fun i hi => ?_
  have hj : i / 8 < 16 := by omega
  have hb : i % 8 < 8 := Nat.mod_lt i (by decide)
  have roundTrip := (packBlock_getLsbD _ ⟨i / 8, hj⟩ _ hb).trans (unpackBlock_getLsbD v _ _ hb)
  rwa [Nat.div_add_mod] at roundTrip

/-- Settles O46, from the place of each bit in the packed list of bytes. -/
theorem portsPackLowByteFirst : Obligations.PortsPackLowByteFirst :=
  ⟨packBlock_getLsbD, unpackBlock_packBlock, packBlock_unpackBlock, packOut_getLsbD⟩

end Sys2Proof.Machine
end

section
/-! SUPPORT. The control ROM's words, as R69's table and as the encoded ops of R73 (spec/30_encoding.md). -/

namespace Sys2Proof.Machine

/-- The hardwired ROM has as many words as the core has steps (R69). -/
theorem romWords_length : romWords.length = Config.nsteps := rfl

/-- R68: the hardwired list ends where the address range ends, so the range check hides no word. -/
theorem Memory.read_nil_eq_romWord (a : Nat) : Memory.read [] a = romWord a := by
  rw [Memory.read_nil]
  split
  case isTrue => rfl
  case isFalse beyond => exact (List.getElem?_eq_none (romWords_length ▸ Nat.not_lt.mp beyond)).symm

/-- R69's words for round tweakey `r`: `RTK r`, `TKH`, `TKG`. -/
theorem romWord_schedule : ∀ r : Fin 16, romWord (1 + 3 * r.val) = some (BitVec.ofNat 8 (0x10 + r.val)) ∧
    romWord (2 + 3 * r.val) = some 0x20 ∧ romWord (3 + 3 * r.val) = some 0x30 := by decide

/-- R69's words for the keyed trunk rounds: `AESR 1` to `AESR 6`. -/
theorem romWord_trunkRounds : ∀ n : Fin 6, romWord (50 + n.val) = some (BitVec.ofNat 8 (0x51 + n.val)) := by decide

/-- R69's words for the keyed lane rounds: `BAESR 8` to `BAESR 14`. -/
theorem romWord_laneRounds : ∀ n : Fin 7, romWord (59 + n.val) = some (BitVec.ofNat 8 (0x98 + n.val)) := by decide

/-- Settles O6: the two loops of rounds and the schedule by their lemmas, the single words by reading the list, and
nothing beyond address 68 by `Memory.read_outside`. -/
theorem controlRomHoldsTabledWords : Obligations.ControlRomHoldsTabledWords := by
  refine ⟨rfl, fun r => ?schedule, rfl, fun n => ?trunk, rfl, rfl, rfl, fun n => ?lanes, rfl, rfl, rfl,
    fun a beyond => Memory.read_outside [] beyond⟩
  case schedule => simpa only [Memory.read_nil_eq_romWord] using romWord_schedule r
  case trunk => exact (Memory.read_nil_eq_romWord _).trans (romWord_trunkRounds n)
  case lanes => exact (Memory.read_nil_eq_romWord _).trans (romWord_laneRounds n)

/-- `SCHED` is three ops for each of the sixteen round tweakeys (R73). -/
theorem schedOps_length : schedOps.length = 48 := rfl

/-- `SCHED` stands in `EVAL` behind the `WAIT` of address 0 (R73). -/
theorem evalOps_getElem?_one_add {n : Nat} (h : n < 48) : evalOps[1 + n]? = schedOps[n]? := by
  rw [evalOps, List.append_assoc, Nat.add_comm, List.singleton_append, List.getElem?_cons_succ,
    List.getElem?_append_left (schedOps_length ▸ h)]

/-- R73 against R69: the ops of `EVAL`, encoded in order, are the hardwired words. -/
theorem map_encodeWord_evalOps : evalOps.map encodeWord = romWords := by decide

/-- The op `EVAL` lists at `n` encodes to the word at address `n`, and both lists end together. -/
theorem evalOps_getElem?_map_encodeWord (n : Nat) : evalOps[n]?.map encodeWord = Memory.read [] n := by
  rw [Memory.read_nil_eq_romWord, romWord, ← map_encodeWord_evalOps, List.getElem?_map]

/-- Settles O7: the encoded `EVAL` is the ROM, and `SCHED` is `EVAL` from address 1 on. -/
theorem pseudoInstructionsExpandToRom : Obligations.PseudoInstructionsExpandToRom := by
  refine ⟨schedOps_length, rfl, fun n h => ?sched, evalOps_getElem?_map_encodeWord⟩
  case sched => rw [← evalOps_getElem?_one_add h, evalOps_getElem?_map_encodeWord]

end Sys2Proof.Machine
end

section
/-! SUPPORT. Where the hardwired control ROM holds which op: `romOp` as a look-up in `EVAL`'s listing, and the places
of the ops behind the schedule (spec/30_encoding.md R67, R69, R73). -/

namespace Sys2Proof.Machine

/-- R67: the control word of an op decodes to that op. -/
theorem decodeWord_encodeWord (i : Instr) : decodeWord (encodeWord i) = .ok i := by
  cases i with
  | wait | tkh | tkg | aesrz | fork | baesrz | fin => rfl
  | rtk k | xork k | aesr k | bxork k | baesr k | mask k => revert k; decide

/-- The decoded ROM is the listing `EVAL`, address by address. -/
theorem romOp_eq_evalOps (a : Nat) : romOp a = evalOps[a]? := by
  rw [romOp, ← evalOps_getElem?_map_encodeWord]
  cases evalOps[a]? with
  | none => rfl
  | some i => simp only [Option.map_some, decodeWord_encodeWord]

/-- The ops at addresses 49 and above, behind `WAIT` and `SCHED`. -/
theorem evalOps_drop_schedule : evalOps.drop 49 =
    [.xork 0, .aesr 1, .aesr 2, .aesr 3, .aesr 4, .aesr 5, .aesr 6, .aesrz, .fork, .bxork 7, .baesr 8, .baesr 9,
      .baesr 10, .baesr 11, .baesr 12, .baesr 13, .baesr 14, .baesrz, .mask 15, .fin] := rfl

/-- An op that neither waits nor works on the tweakey has all its places at addresses 49 and above. -/
theorem romOp_eq_some_iff_of_notMem_schedule {i : Instr} {a : Nat} (h : i ∉ .wait :: schedOps) :
    romOp a = some i ↔ (i, a) ∈ (evalOps.drop 49).zipIdx 49 := by
  have places : evalOps.zipIdx = (.wait :: schedOps).zipIdx ++ (evalOps.drop 49).zipIdx 49 := rfl
  have before : (i, a) ∉ (Instr.wait :: schedOps).zipIdx := fun mem => h (List.fst_mem_of_mem_zipIdx mem)
  rw [romOp_eq_evalOps, ← List.mk_mem_zipIdx_iff_getElem?, places, List.mem_append, or_iff_right before]

end Sys2Proof.Machine
end

section
/-! SUPPORT. The frame of an op, from the frames of the register updates it is made of. -/

namespace Sys2Proof.Machine

variable {s t u : State}

theorem Reg.same_trans {r : Reg} (first : r.same s t) (second : r.same t u) : r.same s u := by
  cases r <;> exact second.trans first

/-- Two updates one after the other change what either may write. -/
theorem Unchanged.trans {written also : Reg → Prop} (first : Unchanged written s t) (second : Unchanged also t u) :
    Unchanged (fun r => written r ∨ also r) s u where
  registers r kept :=
    Reg.same_trans (first.registers r fun w => kept (.inl w)) (second.registers r fun w => kept (.inr w))
  romWords a := (second.romWords a).trans (first.romWords a)
  rom := second.rom.trans first.rom
  inputs := second.inputs.trans first.inputs

theorem unchanged_setS (s : State) (v : Block) : Unchanged (fun r => r = .S) s (s.setS v) where
  registers r kept := by
    cases r with
    | S => exact absurd rfl kept
    | _ => rfl
  romWords _ := rfl
  rom := rfl
  inputs := rfl

theorem unchanged_nextStep (s : State) : Unchanged (fun r => r = .step) s s.nextStep where
  registers r kept := by
    cases r with
    | step => exact absurd rfl kept
    | _ => rfl
  romWords _ := rfl
  rom := rfl
  inputs := rfl

end Sys2Proof.Machine
end

section
/-! SUPPORT. The trunk ops `XORK`, `AESR` and `AESRZ` (spec/40_aes_round.md R90 to R92): each writes `S` and advances
`step`. -/

namespace Sys2Proof.Machine

/-- R85, byte by byte. -/
@[simp] theorem getElem_addRoundKey (X K : Block) (j : Nat) (h : j < 16) : (addRoundKey X K)[j] = X[j] ^^^ K[j] :=
  Block.getElem_xor X K j h

@[simp] theorem addRoundKey_zero (X : Block) : addRoundKey X Block.zero = X := Block.xor_zero X

@[simp] theorem addRoundKey_addRoundKey (X K : Block) : addRoundKey (addRoundKey X K) K = X := Block.xor_xor_cancel X K

/-- The frame the three trunk ops share. -/
theorem unchanged_setS_nextStep (s : State) (v : Block) :
    Unchanged (fun r => r = .S ∨ r = .step) s (s.setS v).nextStep :=
  (unchanged_setS s v).trans (unchanged_nextStep _)

/-- The advance of `step` the three trunk ops share. -/
theorem step_setS_nextStep (s : State) (v : Block) : (s.setS v).nextStep.step = s.step + 1 := rfl

/-- A trunk op leaves the round tweakey to be read again. -/
theorem rtkOperand_setS_nextStep (s : State) (v : Block) (k : Fin 16) :
    (s.setS v).nextStep.rtkOperand k = s.rtkOperand k := rfl

theorem encodeWord_xork : ∀ k : Fin 16, encodeWord (.xork k) = BitVec.ofNat 8 (0x40 + k.val) := by decide

theorem encodeWord_aesr : ∀ k : Fin 16, encodeWord (.aesr k) = BitVec.ofNat 8 (0x50 + k.val) := by decide

/-- R69: the whitening of the trunk. -/
theorem romOp_eq_xork_iff (a : Nat) (k : Fin 16) : romOp a = some (.xork k) ↔ a = 49 ∧ k = 0 := by
  rw [romOp_eq_some_iff_of_notMem_schedule (by simp [schedOps]), evalOps_drop_schedule]
  simp [and_comm]

/-- R69: the six keyed rounds of the trunk. -/
theorem romOp_eq_aesr_iff (a : Nat) (k : Fin 16) :
    romOp a = some (.aesr k) ↔ 1 ≤ k.val ∧ k.val ≤ 6 ∧ a = 49 + k.val := by
  rw [romOp_eq_some_iff_of_notMem_schedule (by simp [schedOps]), evalOps_drop_schedule]
  simp only [List.zipIdx_cons, Nat.reduceAdd, List.zipIdx_nil, List.mem_cons, Prod.mk.injEq, reduceCtorEq, false_and,
    Instr.aesr.injEq, Fin.ext_iff, Fin.coe_ofNat_eq_mod, Nat.one_mod, Nat.reduceMod, List.not_mem_nil, or_self,
    or_false, false_or]
  omega

/-- R69: the closing round of the trunk. -/
theorem romOp_eq_aesrz_iff (a : Nat) : romOp a = some .aesrz ↔ a = 56 := by
  rw [romOp_eq_some_iff_of_notMem_schedule (by simp [schedOps]), evalOps_drop_schedule]
  simp

/-- Settles O24: what `XORK` does to `S` is `addRoundKey`, an involution that `ZERO` makes the identity; its one place
in the ROM is `XORK 0`'s. -/
theorem xorkAddsTweakeyToTrunk : Obligations.XorkAddsTweakeyToTrunk := by
  refine ⟨fun k s => ⟨_, exec_xork s k, fun j => ?bytes, step_setS_nextStep s _,
    unchanged_setS_nextStep s _, fun zero => ?zeroKey, _, exec_xork _ k, ?twice⟩, encodeWord_xork, romOp_eq_xork_iff⟩
  case bytes => exact getElem_addRoundKey s.S s.RTK[k] j.val j.isLt
  case zeroKey => exact (congrArg (addRoundKey s.S) zero).trans (addRoundKey_zero s.S)
  case twice =>
    rw [rtkOperand_setS_nextStep]
    exact addRoundKey_addRoundKey s.S (s.rtkOperand k)

/-- Settles O25, from the answer of `exec`, the frame of the trunk ops and the six places in the ROM. -/
theorem aesrRunsKeyedTrunkRound : Obligations.AesrRunsKeyedTrunkRound :=
  ⟨fun k s => ⟨_, exec_aesr s k, rfl, step_setS_nextStep s _, unchanged_setS_nextStep s _⟩,
    encodeWord_aesr, romOp_eq_aesr_iff⟩

/-- Settles O26, as for `AESR`; another schedule store is carried through, since the answer of `exec` names none. -/
theorem aesrzRunsZeroKeyTrunkRound : Obligations.AesrzRunsZeroKeyTrunkRound :=
  ⟨fun s => ⟨_, exec_aesrz s, rfl, step_setS_nextStep s _, unchanged_setS_nextStep s _,
    fun w => exec_aesrz { s with RTK := w }⟩, rfl, romOp_eq_aesrz_iff⟩

end Sys2Proof.Machine
end

section
/-! SUPPORT. The functions of the tweakey schedule: `rtk_assemble`, `h_perm` and `g_block`, byte by byte and at their
corner cases (spec/41_tweakey_schedule.md R102 to R105). -/

namespace Sys2Proof.Machine

/-- R102 in one XOR: the round tweakey is both halves and the constant Block of its round. -/
theorem rtkAssemble_eq_xor (T1 T2 : Block) (r : Fin 16) :
    rtkAssemble T1 T2 r = Block.xor (Block.xor T1 T2) (roundConstantBlock r) := by
  refine Vector.ext fun j h => ?_
  rw [Block.getElem_xor, Block.getElem_xor, rtkAssemble, roundConstantBlock, Vector.getElem_ofFn, Vector.getElem_ofFn]
  split
  case isTrue => rfl
  case isFalse =>
    split
    case isTrue => rfl
    case isFalse => exact BitVec.xor_zero.symm

/-- Equal halves cancel. -/
theorem rtkAssemble_self (T : Block) (r : Fin 16) : rtkAssemble T T r = roundConstantBlock r := by
  rw [rtkAssemble_eq_xor, Block.xor_self, Block.xor_comm, Block.xor_zero]

/-- R63: the gather table inverts the scatter table. -/
@[simp] theorem permInv_perm : ∀ i : Fin 16, permInv (perm i) = i := by decide

/-- R103 as a gather. -/
theorem getElem_hPerm (T : Block) (j : Fin 16) : (hPerm T)[j] = T[permInv j] := by
  rw [hPerm, Fin.getElem_fin, Vector.getElem_ofFn]

/-- R103 as a scatter. -/
theorem getElem_hPerm_perm (T : Block) (i : Fin 16) : (hPerm T)[perm i] = T[i] := by
  simp only [getElem_hPerm, permInv_perm]

/-- Moving equal bytes changes nothing. -/
theorem hPerm_eq_self_of_bytes_eq {T : Block} (equal : ∀ i j : Fin 16, T[i] = T[j]) : hPerm T = T :=
  Vector.ext fun j h => (getElem_hPerm T ⟨j, h⟩).trans (equal _ ⟨j, h⟩)

/-- R105, byte by byte. -/
theorem getElem_gBlock (T : Block) (j : Fin 16) : (gBlock T)[j] = gLfsr T[j] := by
  rw [gBlock, Fin.getElem_fin, Vector.getElem_ofFn, Fin.getElem_fin]

@[simp] theorem gLfsr_zero : gLfsr 0 = 0 := rfl

@[simp] theorem gBlock_zero : gBlock Block.zero = Block.zero := by
  refine Vector.ext fun j h => ?_
  rw [gBlock, Vector.getElem_ofFn, Fin.getElem_fin, Block.getElem_zero, gLfsr_zero]

end Sys2Proof.Machine
end

section
/-! SUPPORT. Where the hardwired control ROM holds the ops of the tweakey schedule (spec/30_encoding.md R69, R73). -/

namespace Sys2Proof.Machine

/-- The three ops of round tweakey `r`, each with its ROM address (R69). -/
def schedulePlaces (r : Fin 16) : List (Instr × Nat) :=
  [(.rtk r, 1 + 3 * r.val), (.tkh, 2 + 3 * r.val), (.tkg, 3 + 3 * r.val)]

/-- `SCHED` stands at addresses 1 and above, three words to a round tweakey. -/
theorem zipIdx_schedOps : schedOps.zipIdx 1 = (List.finRange 16).flatMap schedulePlaces := by decide

/-- An op that works on the tweakey alone has all its places among those of the sixteen round tweakeys. -/
theorem romOp_eq_some_iff_schedulePlaces {i : Instr} {a : Nat} (notWait : i ≠ .wait) (notLater : i ∉ evalOps.drop 49) :
    romOp a = some i ↔ ∃ r, (i, a) ∈ schedulePlaces r := by
  have places : evalOps.zipIdx = (.wait, 0) :: schedOps.zipIdx 1 ++ (evalOps.drop 49).zipIdx 49 := rfl
  have after : (i, a) ∉ (evalOps.drop 49).zipIdx 49 := fun mem => notLater (List.fst_mem_of_mem_zipIdx mem)
  have first : (i, a) ≠ (.wait, 0) := fun same => notWait (congrArg Prod.fst same)
  rw [romOp_eq_evalOps, ← List.mk_mem_zipIdx_iff_getElem?, places, List.mem_append, or_iff_left after,
    List.mem_cons, or_iff_right first, zipIdx_schedOps, List.mem_flatMap]
  simp only [List.mem_finRange, true_and]

/-- R69: each round tweakey is assembled at one address. -/
theorem romOp_eq_rtk_iff (a : Nat) (k : Fin 16) : romOp a = some (.rtk k) ↔ a = 1 + 3 * k.val := by
  rw [romOp_eq_some_iff_schedulePlaces (by simp) (by simp [evalOps_drop_schedule])]
  simp [schedulePlaces]

/-- R69: both halves are permuted once for each round tweakey. -/
theorem romOp_eq_tkh_iff (a : Nat) : romOp a = some .tkh ↔ ∃ r : Fin 16, a = 2 + 3 * r.val := by
  rw [romOp_eq_some_iff_schedulePlaces (by simp) (by simp [evalOps_drop_schedule])]
  simp [schedulePlaces]

/-- R69: the first half is stepped once for each round tweakey. -/
theorem romOp_eq_tkg_iff (a : Nat) : romOp a = some .tkg ↔ ∃ r : Fin 16, a = 3 + 3 * r.val := by
  rw [romOp_eq_some_iff_schedulePlaces (by simp) (by simp [evalOps_drop_schedule])]
  simp [schedulePlaces]

end Sys2Proof.Machine
end

section
/-! SUPPORT. The ops `RTK`, `TKH` and `TKG` (spec/41_tweakey_schedule.md R110 to R112): the frames of the registers
they write, and what each of them does. -/

namespace Sys2Proof.Machine

theorem unchanged_setTK1 (s : State) (v : Block) : Unchanged (fun r => r = .TK1) s (s.setTK1 v) where
  registers r kept := by
    cases r with
    | TK1 => exact absurd rfl kept
    | _ => rfl
  romWords _ := rfl
  rom := rfl
  inputs := rfl

theorem unchanged_setTK2 (s : State) (v : Block) : Unchanged (fun r => r = .TK2) s (s.setTK2 v) where
  registers r kept := by
    cases r with
    | TK2 => exact absurd rfl kept
    | _ => rfl
  romWords _ := rfl
  rom := rfl
  inputs := rfl

theorem unchanged_writeRTK (s : State) (k : Fin 16) (v : Block) :
    Unchanged (fun r => r = .RTK k) s (s.writeRTK k v) where
  registers r kept := by
    cases r with
    | RTK r => exact s.writeRTK_other v fun same => kept (congrArg Reg.RTK same)
    | _ => rfl
  romWords _ := rfl
  rom := rfl
  inputs := rfl

theorem encodeWord_rtk : ∀ k : Fin 16, encodeWord (.rtk k) = BitVec.ofNat 8 (0x10 + k.val) := by decide

/-- Settles O21: `RTK k` writes one entry of the schedule store, and equal halves leave the round constant in it. -/
theorem rtkAssemblesOneTweakey : Obligations.RtkAssemblesOneTweakey := by
  refine ⟨fun k s => ⟨_, exec_rtk s k, s.writeRTK_same k _, State.nextStep_step _,
    (unchanged_writeRTK s k _).trans (unchanged_nextStep _), fun equal => ?equalHalves⟩, encodeWord_rtk, romOp_eq_rtk_iff⟩
  case equalHalves =>
    rw [State.nextStep_RTK, State.writeRTK_same, equal, rtkAssemble_self]

/-- Settles O22: `h_perm` on each half is the scatter by `PERM`, and keeps a half of equal bytes. -/
theorem tkhPermutesBothHalves : Obligations.TkhPermutesBothHalves :=
  ⟨fun s => ⟨_, exec_tkh s, fun i => ⟨getElem_hPerm_perm s.TK1 i, getElem_hPerm_perm s.TK2 i⟩, State.nextStep_step _,
    (unchanged_setTK1 s _).trans ((unchanged_setTK2 _ _).trans (unchanged_nextStep _)),
    hPerm_eq_self_of_bytes_eq, hPerm_eq_self_of_bytes_eq⟩, rfl, romOp_eq_tkh_iff⟩

/-- Settles O23: `g_block` is `g_lfsr` on each byte of `TK1`, and keeps `ZERO`. -/
theorem tkgStepsFirstHalf : Obligations.TkgStepsFirstHalf :=
  ⟨fun s => ⟨_, exec_tkg s, getElem_gBlock s.TK1, State.nextStep_step _,
    (unchanged_setTK1 s _).trans (unchanged_nextStep _),
    fun zero => (congrArg gBlock zero).trans gBlock_zero⟩, rfl, romOp_eq_tkg_iff⟩

end Sys2Proof.Machine
end

section
/-! SUPPORT. Branch key derivation, byte by byte and as a key addition (spec/42_branch_key.md R120, R124). -/

namespace Sys2Proof

/-- What two Blocks add to the same Block is all they differ by. -/
theorem Block.xor_xor_xor_cancel_left (X Y Z : Block) : Block.xor (Block.xor X Y) (Block.xor X Z) = Block.xor Y Z := by
  rw [Block.xor_comm X Y, Block.xor_assoc, ← Block.xor_assoc X X Z, Block.xor_self, Block.xor_comm Block.zero,
    Block.xor_zero]

end Sys2Proof

namespace Sys2Proof.Machine

/-- R120, byte by byte. -/
theorem getElem_branchKey (K : Block) (c : Byte) (j : Nat) (h : j < 16) :
    (branchKey K c)[j] = if 8 ≤ j ∧ j ≤ 11 then K[j] ^^^ c else K[j] := by
  rw [branchKey, Vector.getElem_ofFn, Fin.getElem_fin]

theorem getElem_branchConstantBlock (c : Byte) (j : Nat) (h : j < 16) :
    (branchConstantBlock c)[j] = if 8 ≤ j ∧ j ≤ 11 then c else 0 := by
  rw [branchConstantBlock, Vector.getElem_ofFn]

/-- R120 in one XOR: the derivation adds a constant Block. -/
theorem branchKey_eq_xor (K : Block) (c : Byte) : branchKey K c = Block.xor K (branchConstantBlock c) := by
  refine Vector.ext fun j h => ?_
  rw [Block.getElem_xor, getElem_branchKey, getElem_branchConstantBlock]
  split
  case isTrue => rfl
  case isFalse => exact BitVec.xor_zero.symm

theorem xor_branchConstantBlock (c d : Byte) :
    Block.xor (branchConstantBlock c) (branchConstantBlock d) = branchConstantBlock (c ^^^ d) := by
  refine Vector.ext fun j h => ?_
  rw [Block.getElem_xor, getElem_branchConstantBlock, getElem_branchConstantBlock, getElem_branchConstantBlock]
  split
  case isTrue => rfl
  case isFalse => exact BitVec.xor_self

/-- R124: two keys derived from one round tweakey differ by their constants alone. -/
theorem xor_branchKey_branchKey (K : Block) (c d : Byte) :
    Block.xor (branchKey K c) (branchKey K d) = branchConstantBlock (c ^^^ d) := by
  rw [branchKey_eq_xor, branchKey_eq_xor, Block.xor_xor_xor_cancel_left, xor_branchConstantBlock]

/-- Adding a branch key is adding the round tweakey, and the constant in column 2. -/
theorem getElem_xor_branchKey (X K : Block) (c : Byte) (j : Nat) (h : j < 16) : (Block.xor X (branchKey K c))[j] =
    if 8 ≤ j ∧ j ≤ 11 then X[j] ^^^ K[j] ^^^ c else X[j] ^^^ K[j] := by
  rw [Block.getElem_xor, getElem_branchKey, apply_ite (X[j] ^^^ ·), BitVec.xor_assoc]

end Sys2Proof.Machine
end

section
/-! SUPPORT. Where the hardwired control ROM holds the ops of the evaluator, and their control words
(spec/30_encoding.md R67, R69). -/

namespace Sys2Proof.Machine

/-- R69: the evaluation waits at address 0 and nowhere else. -/
theorem romOp_eq_wait_iff (a : Nat) : romOp a = some .wait ↔ a = 0 := by
  have later : Instr.wait ∉ evalOps.tail := by decide
  rw [romOp_eq_evalOps]
  cases a with
  | zero => exact iff_of_true rfl rfl
  | succ n =>
    rw [← List.getElem?_tail]
    exact iff_of_false (fun found => later (List.mem_of_getElem? found)) n.succ_ne_zero

/-- R69: the fork. -/
theorem romOp_eq_fork_iff (a : Nat) : romOp a = some .fork ↔ a = 57 := by
  rw [romOp_eq_some_iff_of_notMem_schedule (by simp [schedOps]), evalOps_drop_schedule]
  simp

/-- R69: the whitening of the lanes. -/
theorem romOp_eq_bxork_iff (a : Nat) (k : Fin 16) : romOp a = some (.bxork k) ↔ a = 58 ∧ k = 7 := by
  rw [romOp_eq_some_iff_of_notMem_schedule (by simp [schedOps]), evalOps_drop_schedule]
  simp [and_comm]

/-- R69: the seven keyed rounds of the lanes. -/
theorem romOp_eq_baesr_iff (a : Nat) (k : Fin 16) :
    romOp a = some (.baesr k) ↔ 8 ≤ k.val ∧ k.val ≤ 14 ∧ a = 51 + k.val := by
  rw [romOp_eq_some_iff_of_notMem_schedule (by simp [schedOps]), evalOps_drop_schedule]
  simp only [List.zipIdx_cons, Nat.reduceAdd, List.zipIdx_nil, List.mem_cons, Prod.mk.injEq, reduceCtorEq, false_and,
    Instr.baesr.injEq, Fin.ext_iff, Fin.coe_ofNat_eq_mod, Nat.reduceMod, List.not_mem_nil, or_self, or_false, false_or]
  omega

/-- R69: the closing round of the lanes. -/
theorem romOp_eq_baesrz_iff (a : Nat) : romOp a = some .baesrz ↔ a = 66 := by
  rw [romOp_eq_some_iff_of_notMem_schedule (by simp [schedOps]), evalOps_drop_schedule]
  simp

/-- R69: the output write. -/
theorem romOp_eq_mask_iff (a : Nat) (k : Fin 16) : romOp a = some (.mask k) ↔ a = 67 ∧ k = 15 := by
  rw [romOp_eq_some_iff_of_notMem_schedule (by simp [schedOps]), evalOps_drop_schedule]
  simp [and_comm]

/-- R69: the end of the evaluation. -/
theorem romOp_eq_fin_iff (a : Nat) : romOp a = some .fin ↔ a = 68 := by
  rw [romOp_eq_some_iff_of_notMem_schedule (by simp [schedOps]), evalOps_drop_schedule]
  simp

theorem encodeWord_bxork : ∀ k : Fin 16, encodeWord (.bxork k) = BitVec.ofNat 8 (0x80 + k.val) := by decide

theorem encodeWord_baesr : ∀ k : Fin 16, encodeWord (.baesr k) = BitVec.ofNat 8 (0x90 + k.val) := by decide

theorem encodeWord_mask : ∀ k : Fin 16, encodeWord (.mask k) = BitVec.ofNat 8 (0xb0 + k.val) := by decide

end Sys2Proof.Machine
end

section
/-! SUPPORT. The three ways `step` advances (spec/43_evaluator.md R134). -/

namespace Sys2Proof.Machine

/-- An op that writes other registers and then advances counts on from the old `step`. -/
theorem step_nextStep_of_eq {s u : State} (h : u.step = s.step) : u.nextStep.step = s.step + 1 :=
  congrArg (· + 1) h

/-- Every op but `WAIT` and `FIN` completes and moves on to the next address. -/
theorem exec_advances {i : Instr} (s : State) (notWait : i ≠ .wait) (notFin : i ≠ .fin) :
    ∃ t, exec i s = .next t ∧ t.step = s.step + 1 := by
  cases i with
  | wait => exact absurd rfl notWait
  | fin => exact absurd rfl notFin
  | rtk k => exact ⟨_, exec_rtk s k, step_nextStep_of_eq (s.writeRTK_step k _)⟩
  | tkh => exact ⟨_, exec_tkh s, step_nextStep_of_eq ((State.setTK2_step _ _).trans (s.setTK1_step _))⟩
  | tkg => exact ⟨_, exec_tkg s, step_nextStep_of_eq (s.setTK1_step _)⟩
  | xork k => exact ⟨_, exec_xork s k, step_nextStep_of_eq (s.setS_step _)⟩
  | aesr k => exact ⟨_, exec_aesr s k, step_nextStep_of_eq (s.setS_step _)⟩
  | aesrz => exact ⟨_, exec_aesrz s, step_nextStep_of_eq (s.setS_step _)⟩
  | fork => exact ⟨_, exec_fork s, step_nextStep_of_eq ((State.mapLanes_step _ _).trans (s.setF_step _))⟩
  | bxork k => exact ⟨_, exec_bxork s k, step_nextStep_of_eq (s.mapLanes_step _)⟩
  | baesr k => exact ⟨_, exec_baesr s k, step_nextStep_of_eq (s.mapLanes_step _)⟩
  | baesrz => exact ⟨_, exec_baesrz s, step_nextStep_of_eq (s.mapLanes_step _)⟩
  | mask k => exact ⟨_, exec_mask s k, step_nextStep_of_eq (s.setOUT_step _)⟩

/-- Settles O15: `WAIT` by the level of `start`, `FIN`, and every other op by `exec_advances`. -/
theorem stepCounterAdvances : Obligations.StepCounterAdvances := by
  intro i s
  by_cases isWait : i = .wait
  · subst isWait
    cases start : s.ports.start with
    | true =>
      exact ⟨_, exec_wait_start s start, fun _ _ => s.acceptStart_step, nofun, nofun,
        fun notWait => absurd rfl notWait⟩
    | false =>
      exact ⟨_, exec_wait_idle s start, nofun, fun _ _ => s.setStep_step 0, nofun,
        fun notWait => absurd rfl notWait⟩
  · by_cases isFin : i = .fin
    · subst isFin
      exact ⟨_, exec_fin s, nofun, nofun, fun _ => State.setStep_step _ 0, fun _ notFin => absurd rfl notFin⟩
    · obtain ⟨t, answer, advanced⟩ := exec_advances s isWait isFin
      exact ⟨t, answer, fun wait => absurd wait isWait, fun wait => absurd wait isWait, fun fin => absurd fin isFin,
        fun _ _ => advanced⟩

end Sys2Proof.Machine
end

section
/-! SUPPORT. The ops of the lanes, `FORK`, `BXORK`, `BAESR` and `BAESRZ` (spec/43_evaluator.md R137 to R140): each
maps the lane register file and advances `step`. -/

namespace Sys2Proof.Machine

theorem unchanged_setF (s : State) (v : Block) : Unchanged (fun r => r = .F) s (s.setF v) where
  registers r kept := by
    cases r with
    | F => exact absurd rfl kept
    | _ => rfl
  romWords _ := rfl
  rom := rfl
  inputs := rfl

theorem unchanged_mapLanes (s : State) (f : Fin 8 → Block → Block) :
    Unchanged (fun r => ∃ i, r = .B i) s (s.mapLanes f) where
  registers r kept := by
    cases r with
    | B i => exact absurd ⟨i, rfl⟩ kept
    | _ => rfl
  romWords _ := rfl
  rom := rfl
  inputs := rfl

/-- The frame the lane ops share. -/
theorem unchanged_mapLanes_nextStep (s : State) (f : Fin 8 → Block → Block) :
    Unchanged (fun r => (∃ i, r = .B i) ∨ r = .step) s (s.mapLanes f).nextStep :=
  (unchanged_mapLanes s f).trans (unchanged_nextStep _)

/-- The advance of `step` the lane ops share. -/
theorem step_mapLanes_nextStep (s : State) (f : Fin 8 → Block → Block) :
    (s.mapLanes f).nextStep.step = s.step + 1 :=
  step_nextStep_of_eq (s.mapLanes_step f)

/-- What a lane op leaves in lane `i`. -/
theorem lane_mapLanes_nextStep (s : State) (f : Fin 8 → Block → Block) (i : Fin 8) :
    (s.mapLanes f).nextStep.B[i] = f i s.B[i] :=
  s.mapLanes_lane f i

/-- Settles O27: the lanes are seeded from `S` by a map that forgets the old lane. -/
theorem forkSeedsAllLanes : Obligations.ForkSeedsAllLanes :=
  ⟨fun s => ⟨_, exec_fork s, rfl, lane_mapLanes_nextStep _ _, step_mapLanes_nextStep _ _,
    (unchanged_setF s _).trans (unchanged_mapLanes_nextStep _ _)⟩, rfl, romOp_eq_fork_iff⟩

/-- Settles O28: each lane adds its branch key, and equal lanes then differ as their keys do. -/
theorem bxorkAddsBranchKeys : Obligations.BxorkAddsBranchKeys := by
  refine ⟨fun k s => ⟨_, exec_bxork s k, fun i j => ?bytes, step_mapLanes_nextStep s _,
    unchanged_mapLanes_nextStep s _, fun equal i j => ?difference⟩, encodeWord_bxork, romOp_eq_bxork_iff⟩
  case bytes =>
    rw [lane_mapLanes_nextStep]
    exact getElem_xor_branchKey s.B[i] s.RTK[k] (branchConstant i) j.val j.isLt
  case difference =>
    rw [lane_mapLanes_nextStep, lane_mapLanes_nextStep, equal i j, Block.xor_xor_xor_cancel_left]
    exact xor_branchKey_branchKey s.RTK[k] (branchConstant i) (branchConstant j)

/-- Settles O29, from the answer of `exec`, the lane map and the seven places in the ROM. -/
theorem baesrRunsKeyedLaneRounds : Obligations.BaesrRunsKeyedLaneRounds :=
  ⟨fun k s => ⟨_, exec_baesr s k, lane_mapLanes_nextStep s _, step_mapLanes_nextStep s _,
    unchanged_mapLanes_nextStep s _⟩, encodeWord_baesr, romOp_eq_baesr_iff⟩

/-- Settles O30, as for `BAESR`; another schedule store is carried through, since the answer of `exec` names none. -/
theorem baesrzRunsZeroKeyLaneRounds : Obligations.BaesrzRunsZeroKeyLaneRounds :=
  ⟨fun s => ⟨_, exec_baesrz s, lane_mapLanes_nextStep s _, step_mapLanes_nextStep s _,
    unchanged_mapLanes_nextStep s _, fun w => exec_baesrz { s with RTK := w }⟩, rfl, romOp_eq_baesrz_iff⟩

end Sys2Proof.Machine
end

section
/-! SUPPORT. The op `MASK` (spec/43_evaluator.md R141): the masked lanes byte by byte, and the whole of `OUT` from its
eight slots. -/

namespace Sys2Proof.Machine

theorem unchanged_setOUT (s : State) (v : Vector Byte 128) : Unchanged (fun r => ∃ a, r = .OUT a) s (s.setOUT v) where
  registers r kept := by
    cases r with
    | OUT a => exact absurd ⟨a, rfl⟩ kept
    | _ => rfl
  romWords _ := rfl
  rom := rfl
  inputs := rfl

theorem getElem_maskedLane (s : State) (k : Fin 16) (i : Fin 8) (j : Fin 16) : (s.maskedLane k i)[j] =
    if 8 ≤ j.val ∧ j.val ≤ 11 then s.B[i][j] ^^^ s.RTK[k][j] ^^^ BitVec.ofNat 8 (i.val + 1) ^^^ s.F[j]
    else s.B[i][j] ^^^ s.RTK[k][j] ^^^ s.F[j] := by
  have keyed := getElem_xor_branchKey s.B[i] s.RTK[k] (branchConstant i) j.val j.isLt
  rw [State.maskedLane, State.laneKey_eq, Fin.getElem_fin, Block.getElem_xor, keyed]
  exact apply_ite (· ^^^ s.F[j]) _ _ _

/-- The eight slots of sixteen bytes are the whole of `OUT` (R42). -/
theorem eq_of_slots_eq {o o' : Vector Byte 128}
    (slots : ∀ (i : Fin 8) (j : Fin 16), o[16 * i.val + j.val] = o'[16 * i.val + j.val]) : o = o' := by
  refine Vector.ext fun a h => ?_
  have slot := slots ⟨a / 16, by omega⟩ ⟨a % 16, by omega⟩
  simpa only [Nat.div_add_mod] using slot

/-- The eight writes of `MASK` leave nothing of the old `OUT`. -/
theorem memWriteOutAll_overwrites (old out : Vector Byte 128) (v : Fin 8 → Block) :
    memWriteOutAll old v = memWriteOutAll out v :=
  eq_of_slots_eq fun i j => (memWriteOutAll_slot old v i j).trans (memWriteOutAll_slot out v i j).symm

/-- Settles O31: slot `i` receives the masked lane `i`, and the slots are all of `OUT`. -/
theorem maskWritesAllOfOut : Obligations.MaskWritesAllOfOut := by
  refine ⟨fun k s => ⟨_, exec_mask s k, fun i j => ?bytes, step_nextStep_of_eq (s.setOUT_step _),
    (unchanged_setOUT s _).trans (unchanged_nextStep _), fun old => ?overwritten⟩,
    encodeWord_mask, romOp_eq_mask_iff⟩
  case bytes => exact (memWriteOutAll_slot s.OUT (s.maskedLane k) i j).trans (getElem_maskedLane s k i j)
  case overwritten =>
    rw [exec_mask, ← memWriteOutAll_overwrites old s.OUT]
    rfl

end Sys2Proof.Machine
end

section
/-! SUPPORT. The ops `WAIT` and `FIN`, which begin and end an evaluation (spec/43_evaluator.md R136, R142). -/

namespace Sys2Proof.Machine

theorem unchanged_setStep (s : State) (v : BitVec 7) : Unchanged (fun r => r = .step) s (s.setStep v) where
  registers r kept := by
    cases r with
    | step => exact absurd rfl kept
    | _ => rfl
  romWords _ := rfl
  rom := rfl
  inputs := rfl

/-- `WAIT` at address 0 without `start` stays where it is (R171). -/
theorem setStep_eq_self {s : State} {v : BitVec 7} (h : s.step = v) : s.setStep v = s := by
  subst h
  rfl

/-- The frame of the accepting `WAIT`. -/
theorem unchanged_acceptStart (s : State) :
    Unchanged (fun r => r ∈ [.S, .TK1, .TK2, .busy, .done, .step]) s s.acceptStart where
  registers r kept := by
    cases r with
    | S | TK1 | TK2 | busy | done | step => exact absurd (by decide) kept
    | F | RTK | B | OUT => rfl
  romWords _ := rfl
  rom := rfl
  inputs := rfl

/-- Only `WAIT` samples the ports: every other op carries what the host drives through. -/
theorem exec_setInputs {i : Instr} (s : State) (ps : List HostInput) (notWait : i ≠ .wait) :
    ∃ t, exec i s = .next t ∧ exec i (s.setInputs ps) = .next (t.setInputs ps) := by
  cases i with
  | wait => exact absurd rfl notWait
  | rtk k => exact ⟨_, exec_rtk s k, exec_rtk (s.setInputs ps) k⟩
  | tkh => exact ⟨_, exec_tkh s, exec_tkh (s.setInputs ps)⟩
  | tkg => exact ⟨_, exec_tkg s, exec_tkg (s.setInputs ps)⟩
  | xork k => exact ⟨_, exec_xork s k, exec_xork (s.setInputs ps) k⟩
  | aesr k => exact ⟨_, exec_aesr s k, exec_aesr (s.setInputs ps) k⟩
  | aesrz => exact ⟨_, exec_aesrz s, exec_aesrz (s.setInputs ps)⟩
  | fork => exact ⟨_, exec_fork s, exec_fork (s.setInputs ps)⟩
  | bxork k => exact ⟨_, exec_bxork s k, exec_bxork (s.setInputs ps) k⟩
  | baesr k => exact ⟨_, exec_baesr s k, exec_baesr (s.setInputs ps) k⟩
  | baesrz => exact ⟨_, exec_baesrz s, exec_baesrz (s.setInputs ps)⟩
  | mask k => exact ⟨_, exec_mask s k, exec_mask (s.setInputs ps) k⟩
  | fin => exact ⟨_, exec_fin s, exec_fin (s.setInputs ps)⟩

/-- Settles O20: `WAIT` by the level of `start`, and the other ops by `exec_setInputs`. -/
theorem waitLoadsOrIdles : Obligations.WaitLoadsOrIdles :=
  ⟨fun s start => ⟨_, exec_wait_start s start, rfl, rfl, rfl, rfl, rfl, rfl, unchanged_acceptStart s⟩,
    fun s idle => ⟨_, exec_wait_idle s idle, s.setStep_step 0, unchanged_setStep s 0, setStep_eq_self⟩,
    fun _ s ps notWait => exec_setInputs s ps notWait, rfl, romOp_eq_wait_iff⟩

/-- What the clearing of `FIN` leaves of an evaluation is `OUT`. -/
theorem internalZero_clearInternal (s : State) : InternalZero s.clearInternal where
  S := s.clearInternal_S
  F := s.clearInternal_F
  TK1 := s.clearInternal_TK1
  TK2 := s.clearInternal_TK2
  RTK r := by rw [s.clearInternal_RTK, Fin.getElem_fin, Vector.getElem_replicate]
  B i := by rw [s.clearInternal_B, Fin.getElem_fin, Vector.getElem_replicate]

/-- `InternalZero` is about the data registers, which neither the flags nor `step` are among. -/
theorem InternalZero.flagsOnFinish_setStep {s : State} (zero : InternalZero s) (v : BitVec 7) :
    InternalZero (s.flagsOnFinish.setStep v) :=
  ⟨zero.S, zero.F, zero.TK1, zero.TK2, zero.RTK, zero.B⟩

/-- The frame of `FIN`, which of the registers keeps `OUT` alone. -/
theorem unchanged_finish (s : State) :
    Unchanged (fun r => ¬ ∃ a, r = .OUT a) s (s.clearInternal.flagsOnFinish.setStep 0) where
  registers r kept := by
    obtain ⟨a, rfl⟩ := not_not.mp kept
    rfl
  romWords _ := rfl
  rom := rfl
  inputs := rfl

/-- Settles O32: the cleared registers, the two flags and the frame. -/
theorem finClearsAndReports : Obligations.FinClearsAndReports :=
  ⟨fun s => ⟨_, exec_fin s, (internalZero_clearInternal s).flagsOnFinish_setStep 0, rfl, rfl,
    State.setStep_step _ 0, unchanged_finish s⟩, rfl, romOp_eq_fin_iff⟩

end Sys2Proof.Machine
end

section
/-! SUPPORT. A step while CORE is busy: what the host drives does not reach the op (spec/70_reset_and_hazards.md R186,
R187). -/

namespace Sys2Proof.Machine

/-- `EVAL` has an op for each address of the ROM (R69, R73). -/
theorem evalOps_length : evalOps.length = Config.nsteps := rfl

/-- R69: every address of the control ROM holds an op. -/
theorem exists_romOp_eq_some {a : Nat} (inside : a < Config.nsteps) : ∃ i, romOp a = some i :=
  ⟨evalOps[a]'(evalOps_length ▸ inside), (romOp_eq_evalOps a).trans (List.getElem?_eq_getElem _)⟩

/-- R69: from address 1 on the control ROM holds an op, and it is not `WAIT`. -/
theorem exists_romOp_ne_wait {a : Nat} (running : a ≠ 0) (inside : a < Config.nsteps) :
    ∃ i, romOp a = some i ∧ i ≠ .wait := by
  obtain ⟨i, found⟩ := exists_romOp_eq_some inside
  exact ⟨i, found, fun wait => running ((romOp_eq_wait_iff a).mp (wait ▸ found))⟩

/-- A step that runs an op other than `WAIT` with `rst` low uses up the host's entry and does nothing else with it: `u`,
what the op makes of the registers, is the same for every entry `p`. -/
theorem step_setInputs_cons_of_ne_wait {s : State} {i : Instr} (hardwired : s.rom = [])
    (found : romOp s.step.toNat = some i) (notWait : i ≠ .wait) :
    ∃ u : State, ∀ (p : HostInput) (ps : List HostInput), p.rst = false →
      step (s.setInputs (p :: ps)) = .next (u.setInputs ps) := by
  obtain ⟨u, answer, -⟩ := exec_setInputs s [] notWait
  refine ⟨u, fun p ps low => ?_⟩
  obtain ⟨v, answer', carried⟩ := exec_setInputs s (p :: ps) notWait
  obtain rfl : u = v := Host.Outcome.next.inj (answer.symm.trans answer')
  exact step_of_romOp (s := s.setInputs (p :: ps)) hardwired low found carried

/-- Settles O18: at the addresses 1 to 68 the op is not `WAIT`, so both entries are used up unseen. -/
theorem busyIgnoresTheInputPorts : Obligations.BusyIgnoresTheInputPorts := by
  intro s p q ps hardwired running inside lowP lowQ
  have notZero : s.step.toNat ≠ 0 := fun zero => running (BitVec.eq_of_toNat_eq zero)
  obtain ⟨i, found, notWait⟩ := exists_romOp_ne_wait notZero (Nat.lt_succ_of_le inside)
  obtain ⟨u, answer⟩ := step_setInputs_cons_of_ne_wait hardwired found notWait
  exact ⟨u.setInputs ps, answer p ps lowP, answer q ps lowQ⟩

end Sys2Proof.Machine
end

section
/-! SUPPORT. The decoder and the encoder as inverses, and the division of the 256 control words
(spec/30_encoding.md R65 to R68). -/

namespace Sys2Proof.Machine

/-! ## Which word decodes to which op -/

/-- R66: a control word from its two fields. -/
theorem eq_ofNat_of_opField {cw : Byte} {op : Nat} (h : opField cw = op) :
    cw = BitVec.ofNat 8 (16 * op + (kField cw).val) := by
  rw [← h, ← toNat_eq_fields, BitVec.ofNat_toNat, BitVec.setWidth_eq]

/-- A format-Z word decodes to its op alone, and only with the low nibble zero (R66). -/
theorem decodeZ_eq_ok_iff {i j : Instr} {cw : Byte} : decodeZ i cw = .ok j ↔ kField cw = 0 ∧ i = j := by
  rw [decodeZ]
  split
  case isTrue zero => simp [zero]
  case isFalse nonzero => simp [nonzero]

/-- R65: a format-Z word with its low nibble zero is its `op` field alone. -/
theorem eq_ofNat_of_decodeZ {i j : Instr} {cw : Byte} {op : Nat} (hop : opField cw = op)
    (h : decodeZ i cw = .ok j) : i = j ∧ cw = BitVec.ofNat 8 (16 * op) := by
  obtain ⟨zero, same⟩ := decodeZ_eq_ok_iff.mp h
  exact ⟨same, by simpa [zero] using eq_ofNat_of_opField hop⟩

/-- R68: no reserved word decodes, and no word decodes to two ops. -/
theorem eq_encodeWord_of_decodeWord {cw : Byte} {i : Instr} (h : decodeWord cw = .ok i) : cw = encodeWord i := by
  unfold decodeWord at h
  split at h
  case h_2 hop => cases h; exact (eq_ofNat_of_opField hop).trans (encodeWord_rtk _).symm
  case h_5 hop => cases h; exact (eq_ofNat_of_opField hop).trans (encodeWord_xork _).symm
  case h_6 hop => cases h; exact (eq_ofNat_of_opField hop).trans (encodeWord_aesr _).symm
  case h_9 hop => cases h; exact (eq_ofNat_of_opField hop).trans (encodeWord_bxork _).symm
  case h_10 hop => cases h; exact (eq_ofNat_of_opField hop).trans (encodeWord_baesr _).symm
  case h_12 hop => cases h; exact (eq_ofNat_of_opField hop).trans (encodeWord_mask _).symm
  case h_14 => cases h
  case h_1 hop | h_3 hop | h_4 hop | h_7 hop | h_8 hop | h_11 hop | h_13 hop =>
    obtain ⟨rfl, word⟩ := eq_ofNat_of_decodeZ hop h
    exact word

/-- The decoder inverts the encoder on exactly the encoded words (R67, R68). -/
theorem decodeWord_eq_ok_iff {cw : Byte} {i : Instr} : decodeWord cw = .ok i ↔ cw = encodeWord i :=
  ⟨eq_encodeWord_of_decodeWord, fun word => word ▸ decodeWord_encodeWord i⟩

/-- R64: the decoder takes one byte and leaves the rest. -/
theorem decode_eq_ok_iff {bytes rest : List Byte} {i : Instr} :
    decode bytes = .ok (i, rest) ↔ ∃ cw, bytes = cw :: rest ∧ decodeWord cw = .ok i := by
  cases bytes with
  | nil => simp [decode]
  | cons cw tail =>
    rw [decode]
    cases word : decodeWord cw with
    | ok j => simp [word, and_comm]
    | error e => simp [word]

/-- Settles O1: the one byte of the encoding decodes back. -/
theorem decodeUndoesEncode : Obligations.DecodeUndoesEncode := fun i _ =>
  decode_eq_ok_iff.mpr ⟨encodeWord i, rfl, decodeWord_encodeWord i⟩

/-- Settles O2: the byte the decoder takes is the encoded word of what it answers. -/
theorem onlyEncodingsDecode : Obligations.OnlyEncodingsDecode := by
  intro bytes rest i h
  obtain ⟨cw, rfl, word⟩ := decode_eq_ok_iff.mp h
  rw [eq_encodeWord_of_decodeWord word]
  rfl

/-! ## Match and mask -/

/-- R65, R67: what the table's row of a format-K op holds. -/
theorem row_of_index_eq_some {i : Instr} {k : Fin 16} (h : i.index = some k) :
    i.maskBits = 0xf0 ∧ ∃ op, i.matchBits = BitVec.ofNat 8 (16 * op) ∧
      encodeWord i = BitVec.ofNat 8 (16 * op + k.val) := by
  cases i with
  | wait | tkh | tkg | aesrz | fork | baesrz | fin => cases h
  | rtk j => cases h; exact ⟨rfl, 1, rfl, encodeWord_rtk k⟩
  | xork j => cases h; exact ⟨rfl, 4, rfl, encodeWord_xork k⟩
  | aesr j => cases h; exact ⟨rfl, 5, rfl, encodeWord_aesr k⟩
  | bxork j => cases h; exact ⟨rfl, 8, rfl, encodeWord_bxork k⟩
  | baesr j => cases h; exact ⟨rfl, 9, rfl, encodeWord_baesr k⟩
  | mask j => cases h; exact ⟨rfl, 11, rfl, encodeWord_mask k⟩

/-- R65, R67: what the table's row of a format-Z op holds. -/
theorem row_of_index_eq_none {i : Instr} (h : i.index = none) :
    i.maskBits = 0xff ∧ encodeWord i = i.matchBits := by
  cases i with
  | wait | tkh | tkg | aesrz | fork | baesrz | fin => exact ⟨rfl, rfl⟩
  | rtk _ | xork _ | aesr _ | bxork _ | baesr _ | mask _ => cases h

/-- The mask of a format-K op keeps the `op` field. -/
theorem toNat_and_f0 : ∀ cw : Byte, (cw &&& 0xf0).toNat = 16 * opField cw := by decide

/-- A word is told by its masked `op` field and its index. -/
theorem eq_ofNat_iff_fields {cw : Byte} {op : Nat} (k : Fin 16) :
    cw = BitVec.ofNat 8 (16 * op + k.val) ↔ cw &&& 0xf0 = BitVec.ofNat 8 (16 * op) ∧ k.val = cw.toNat % 16 := by
  have masked := toNat_and_f0 cw
  have fields := toNat_eq_fields cw
  have hk : (kField cw).val = cw.toNat % 16 := rfl
  rw [← BitVec.toNat_inj, ← BitVec.toNat_inj, masked, BitVec.toNat_ofNat, BitVec.toNat_ofNat]
  omega

/-- Settles O3: an op's encoded word is the one word that its row's mask and match and its index allow. -/
theorem decodeFollowsMatchAndMask : Obligations.DecodeFollowsMatchAndMask := by
  intro cw i
  rw [decodeWord_eq_ok_iff]
  cases index : i.index with
  | none =>
    obtain ⟨mask, word⟩ := row_of_index_eq_none index
    have keepsAll : cw &&& 0xff = cw := BitVec.and_allOnes
    rw [mask, word, keepsAll]
    simp
  | some k =>
    obtain ⟨mask, op, opBits, word⟩ := row_of_index_eq_some index
    rw [mask, opBits, word, eq_ofNat_iff_fields]
    simp

/-! ## The division of the 256 words -/

/-- R68: a format-K `op` field takes every index. -/
theorem exists_decodeWord_of_formatK {cw : Byte} (h : cw.toNat / 16 ∈ [1, 4, 5, 8, 9, 11]) :
    ∃ i, decodeWord cw = .ok i := by
  unfold decodeWord opField
  simp only [List.mem_cons, List.not_mem_nil, or_false] at h
  rcases h with h | h | h | h | h | h <;> simp only [h] <;> exact ⟨_, rfl⟩

/-- R66, R68: a format-Z `op` field has an op of its own, which the low nibble must be zero for. -/
theorem exists_decodeWord_eq_decodeZ {cw : Byte} (h : cw.toNat / 16 ∈ [0, 2, 3, 6, 7, 10, 12]) :
    ∃ i, decodeWord cw = decodeZ i cw := by
  unfold decodeWord opField
  simp only [List.mem_cons, List.not_mem_nil, or_false] at h
  rcases h with h | h | h | h | h | h | h <;> simp only [h] <;> exact ⟨_, rfl⟩

/-- R68: a format-Z `op` field with a low nibble of zero. -/
theorem exists_decodeWord_of_formatZ {cw : Byte} (h : cw.toNat / 16 ∈ [0, 2, 3, 6, 7, 10, 12])
    (low : cw.toNat % 16 = 0) : ∃ i, decodeWord cw = .ok i := by
  obtain ⟨i, word⟩ := exists_decodeWord_eq_decodeZ h
  exact ⟨i, word.trans (decodeZ_eq_ok_iff.mpr ⟨Fin.ext low, rfl⟩)⟩

/-- R68: a format-Z `op` field with another low nibble is reserved. -/
theorem decodeWord_of_reservedLowNibble {cw : Byte} (h : cw.toNat / 16 ∈ [0, 2, 3, 6, 7, 10, 12])
    (low : cw.toNat % 16 ≠ 0) : decodeWord cw = .error (.reservedLowNibble cw) := by
  obtain ⟨i, word⟩ := exists_decodeWord_eq_decodeZ h
  have nonzero : kField cw ≠ 0 := fun zero => low (congrArg Fin.val zero)
  rw [word, decodeZ, if_neg nonzero]

/-- R68: `op` fields 13, 14 and 15 are reserved. -/
theorem decodeWord_of_reservedOp {cw : Byte} (h : 13 ≤ cw.toNat / 16) : decodeWord cw = .error (.reservedOp cw) := by
  have small : cw.toNat / 16 < 16 := opField_lt cw
  have high : cw.toNat / 16 = 13 ∨ cw.toNat / 16 = 14 ∨ cw.toNat / 16 = 15 := by omega
  unfold decodeWord opField
  rcases high with h | h | h <;> simp only [h]

/-- R68's table of defined words is the decoder's domain. -/
theorem wordDefined_iff (cw : Byte) : wordDefined cw = true ↔ ∃ i, decodeWord cw = .ok i := by
  unfold wordDefined
  by_cases formatK : cw.toNat / 16 ∈ [1, 4, 5, 8, 9, 11]
  · exact iff_of_true (by simp only [formatK, if_true]) (exists_decodeWord_of_formatK formatK)
  by_cases formatZ : cw.toNat / 16 ∈ [0, 2, 3, 6, 7, 10, 12]
  · simp only [formatK, formatZ, if_true, if_false, beq_iff_eq]
    by_cases low : cw.toNat % 16 = 0
    · exact iff_of_true low (exists_decodeWord_of_formatZ formatZ low)
    · exact iff_of_false low (by simp [decodeWord_of_reservedLowNibble formatZ low])
  · have high : 13 ≤ cw.toNat / 16 := by
      simp only [List.mem_cons, List.not_mem_nil, or_false, not_or] at formatK formatZ
      omega
    simp [formatK, formatZ, decodeWord_of_reservedOp high]

/-- Settles O4: the four kinds of words by their `op` field and low nibble, then the three counts. -/
theorem controlWordsDivideAsTabled : Obligations.ControlWordsDivideAsTabled :=
  ⟨fun cw => ⟨exists_decodeWord_of_formatK, exists_decodeWord_of_formatZ, decodeWord_of_reservedLowNibble,
    decodeWord_of_reservedOp, wordDefined_iff cw⟩, rfl, rfl, rfl⟩

/-- Settles O5: the thirteen listed words are the encoded ops, and the two others are reserved by R68's division. -/
theorem sampleWordsDecode : Obligations.SampleWordsDecode :=
  ⟨decodeWord_encodeWord .wait, decodeWord_encodeWord (.rtk 12), decodeWord_encodeWord .tkh,
    decodeWord_encodeWord .tkg, decodeWord_encodeWord (.xork 0), decodeWord_encodeWord (.aesr 6),
    decodeWord_encodeWord .aesrz, decodeWord_encodeWord .fork, decodeWord_encodeWord (.bxork 7),
    decodeWord_encodeWord (.baesr 14), decodeWord_encodeWord .baesrz, decodeWord_encodeWord (.mask 15),
    decodeWord_encodeWord .fin, decodeWord_of_reservedLowNibble (by decide) (by decide),
    decodeWord_of_reservedOp (by decide)⟩

end Sys2Proof.Machine
end

section
/-! SUPPORT. What an op can do to the state, once: it completes, and it writes no register outside its list
(spec/10_state.md R11 to R20, spec/60_exceptions.md R160). -/

namespace Sys2Proof.Machine

variable {i : Instr} {s t u : State}

theorem Unchanged.mono {written also : Reg → Prop} (wider : ∀ r, written r → also r) (frame : Unchanged written s t) :
    Unchanged also s t where
  registers r kept := frame.registers r fun w => kept (wider r w)
  romWords := frame.romWords
  rom := frame.rom
  inputs := frame.inputs

/-- The registers an op may write: the writers' lists of R11 to R20, read op by op. -/
def opWrites : Instr → Reg → Prop
  | .wait, r => r ∈ [.S, .TK1, .TK2, .busy, .done, .step]
  | .rtk k, r => r = .RTK k ∨ r = .step
  | .tkh, r => r = .TK1 ∨ r = .TK2 ∨ r = .step
  | .tkg, r => r = .TK1 ∨ r = .step
  | .xork _, r | .aesr _, r | .aesrz, r => r = .S ∨ r = .step
  | .fork, r => r = .F ∨ (∃ i, r = .B i) ∨ r = .step
  | .bxork _, r | .baesr _, r | .baesrz, r => (∃ i, r = .B i) ∨ r = .step
  | .mask _, r => (∃ a, r = .OUT a) ∨ r = .step
  | .fin, r => ¬ ∃ a, r = .OUT a

/-- R160: every op completes, and it changes nothing but its own registers. -/
theorem exec_completes (i : Instr) (s : State) : ∃ t, exec i s = .next t ∧ Unchanged (opWrites i) s t := by
  cases i with
  | wait =>
    cases start : s.ports.start with
    | true => exact ⟨_, exec_wait_start s start, unchanged_acceptStart s⟩
    | false =>
      exact ⟨_, exec_wait_idle s start, (unchanged_setStep s 0).mono fun r isStep => by subst isStep; simp [opWrites]⟩
  | rtk k => exact ⟨_, exec_rtk s k, (unchanged_writeRTK s k _).trans (unchanged_nextStep _)⟩
  | tkh =>
    exact ⟨_, exec_tkh s, (unchanged_setTK1 s _).trans ((unchanged_setTK2 _ _).trans (unchanged_nextStep _))⟩
  | tkg => exact ⟨_, exec_tkg s, (unchanged_setTK1 s _).trans (unchanged_nextStep _)⟩
  | xork k => exact ⟨_, exec_xork s k, unchanged_setS_nextStep s _⟩
  | aesr k => exact ⟨_, exec_aesr s k, unchanged_setS_nextStep s _⟩
  | aesrz => exact ⟨_, exec_aesrz s, unchanged_setS_nextStep s _⟩
  | fork => exact ⟨_, exec_fork s, (unchanged_setF s _).trans (unchanged_mapLanes_nextStep _ _)⟩
  | bxork k => exact ⟨_, exec_bxork s k, unchanged_mapLanes_nextStep s _⟩
  | baesr k => exact ⟨_, exec_baesr s k, unchanged_mapLanes_nextStep s _⟩
  | baesrz => exact ⟨_, exec_baesrz s, unchanged_mapLanes_nextStep s _⟩
  | mask k => exact ⟨_, exec_mask s k, (unchanged_setOUT s _).trans (unchanged_nextStep _)⟩
  | fin => exact ⟨_, exec_fin s, unchanged_finish s⟩

/-- An op has one next state. -/
theorem exec_unique (h : exec i s = .next t) (h' : exec i s = .next u) : t = u :=
  Host.Outcome.next.inj (h.symm.trans h')

theorem unchanged_of_exec (h : exec i s = .next t) : Unchanged (opWrites i) s t := by
  obtain ⟨u, answer, frame⟩ := exec_completes i s
  exact exec_unique answer h ▸ frame

/-- A register that an op changes is one it writes. -/
theorem opWrites_of_changed (h : exec i s = .next t) {r : Reg} (changed : ¬ r.same s t) : opWrites i r :=
  not_not.mp fun kept => changed ((unchanged_of_exec h).registers r kept)

/-! ## The writers of each register -/

theorem opWrites_S (h : opWrites i .S) :
    i = .wait ∨ (∃ k, i = .xork k) ∨ (∃ k, i = .aesr k) ∨ i = .aesrz ∨ i = .fin := by
  cases i <;> simp_all [opWrites]

theorem opWrites_F (h : opWrites i .F) : i = .fork ∨ i = .fin := by
  cases i <;> simp_all [opWrites]

theorem opWrites_TK1 (h : opWrites i .TK1) : i = .wait ∨ i = .tkh ∨ i = .tkg ∨ i = .fin := by
  cases i <;> simp_all [opWrites]

theorem opWrites_TK2 (h : opWrites i .TK2) : i = .wait ∨ i = .tkh ∨ i = .fin := by
  cases i <;> simp_all [opWrites]

theorem opWrites_RTK {r : Fin 16} (h : opWrites i (.RTK r)) : i = .rtk r ∨ i = .fin := by
  cases i <;> simp_all [opWrites]

theorem opWrites_B {l : Fin 8} (h : opWrites i (.B l)) :
    i = .fork ∨ (∃ k, i = .bxork k) ∨ (∃ k, i = .baesr k) ∨ i = .baesrz ∨ i = .fin := by
  cases i <;> simp_all [opWrites]

theorem opWrites_OUT {a : Fin 128} (h : opWrites i (.OUT a)) : ∃ k, i = .mask k := by
  cases i <;> simp_all [opWrites]

theorem opWrites_status (h : opWrites i .busy ∨ opWrites i .done) : i = .wait ∨ i = .fin := by
  cases i <;> simp_all [opWrites]

/-- A register file that changes has a register that changes. -/
theorem exists_getElem_ne {α : Type} {n : Nat} {v w : Vector α n} (h : v ≠ w) : ∃ j : Fin n, v[j] ≠ w[j] := by
  by_contra none
  exact h (Vector.ext fun j hj => not_not.mp fun differ => none ⟨⟨j, hj⟩, differ⟩)

/-- Settles O17: a changed register is one the op writes, and R11 to R17 are the lists of who does. -/
theorem eachRegisterHasItsWriters : Obligations.EachRegisterHasItsWriters := by
  intro i s t h
  refine ⟨fun d => ?trunk, fun d => ?fork, fun d => ?half1, fun d => ?half2, fun r d => ?store, fun d => ?lanes,
    fun d => ?out⟩
  case trunk => exact opWrites_S (opWrites_of_changed h (r := .S) d)
  case fork => exact opWrites_F (opWrites_of_changed h (r := .F) d)
  case half1 => exact opWrites_TK1 (opWrites_of_changed h (r := .TK1) d)
  case half2 => exact opWrites_TK2 (opWrites_of_changed h (r := .TK2) d)
  case store => exact opWrites_RTK (opWrites_of_changed h (r := .RTK r) d)
  case lanes =>
    obtain ⟨l, differ⟩ := exists_getElem_ne d
    exact opWrites_B (opWrites_of_changed h (r := .B l) differ)
  case out =>
    obtain ⟨a, differ⟩ := exists_getElem_ne d
    exact opWrites_OUT (opWrites_of_changed h (r := .OUT a) differ)

/-- Settles O16: of the two ops that write the status, `WAIT` does so only with `start`. -/
theorem onlyWaitAndFinWriteStatus : Obligations.OnlyWaitAndFinWriteStatus := by
  intro i s t h changed
  have writer : i = .wait ∨ i = .fin := opWrites_status
    (changed.imp (opWrites_of_changed h (r := .busy)) (opWrites_of_changed h (r := .done)))
  rcases writer with rfl | rfl
  · cases start : s.ports.start with
    | true =>
      obtain rfl := exec_unique (exec_wait_start s start) h
      exact .inl ⟨rfl, rfl, rfl, rfl⟩
    | false =>
      obtain rfl := exec_unique (exec_wait_idle s start) h
      exact absurd changed (by simp)
  · obtain rfl := exec_unique (exec_fin s) h
    exact .inr ⟨rfl, rfl, rfl⟩

/-- Settles O33: what a lane op leaves in lane `i` is written with `B[i]`, `RTK[k]` and, for `MASK`, `F` alone. -/
theorem lanesDoNotInteract : Obligations.LanesDoNotInteract := by
  intro k i s s' lane tweakey
  have key : s.laneKey k i = s'.laneKey k i := by rw [State.laneKey_eq, State.laneKey_eq, tweakey]
  refine ⟨⟨_, _, exec_bxork s k, exec_bxork s' k, ?bxork⟩, ⟨_, _, exec_baesr s k, exec_baesr s' k, ?baesr⟩,
    ⟨_, _, exec_baesrz s, exec_baesrz s', ?baesrz⟩, fun fork => ⟨_, _, exec_mask s k, exec_mask s' k, fun j => ?mask⟩⟩
  case bxork | baesr => rw [lane_mapLanes_nextStep, lane_mapLanes_nextStep, lane, key]
  case baesrz => rw [lane_mapLanes_nextStep, lane_mapLanes_nextStep, lane]
  case mask =>
    have slot : s.maskedLane k i = s'.maskedLane k i := by
      rw [State.maskedLane, State.maskedLane, lane, key, fork]
    rw [State.nextStep_OUT, State.nextStep_OUT, State.setOUT_OUT, State.setOUT_OUT, memWriteOutAll_slot,
      memWriteOutAll_slot, slot]

end Sys2Proof.Machine
end

section
/-! SUPPORT. What a step answers in each case of R133: reset, a refusal, or the fetched op (spec/43_evaluator.md R133,
spec/60_exceptions.md R161, spec/70_reset_and_hazards.md R180). -/

namespace Sys2Proof.Machine

variable {s t : State}

theorem step_of_reset (reset : s.ports.rst = true) : step s = .next s.applyReset.consumeInput := by
  rw [step, if_pos reset]

theorem step_of_not_reset (low : s.ports.rst = false) : step s = runFetched s := by
  rw [step, low, if_neg Bool.false_ne_true]

/-- R133 (b) for any contents of the ROM. -/
theorem step_of_decodeWord {u : State} {cw : Byte} {i : Instr} (low : s.ports.rst = false) (word : s.fetch = some cw)
    (op : decodeWord cw = .ok i) (answer : exec i s = .next u) : step s = .next u.consumeInput := by
  simp only [step_of_not_reset low, runFetched, word, op, answer]

theorem step_of_fetch_eq_none (low : s.ports.rst = false) (beyond : s.fetch = none) :
    step s = .refused (.noControlWord s.step.toNat) := by
  simp only [step_of_not_reset low, runFetched, beyond]

theorem step_of_decodeWord_eq_error {cw : Byte} {e : DecodeReject} (low : s.ports.rst = false)
    (word : s.fetch = some cw) (reject : decodeWord cw = .error e) : step s = .refused (refusalOf cw e) := by
  simp only [step_of_not_reset low, runFetched, word, reject]

/-- The host's entry is used up, and the op has not touched the rest of them. -/
theorem consumeInput_of_exec {u : State} {i : Instr} (answer : exec i s = .next u) :
    u.consumeInput = { u with inputs := s.inputs.tail } := by
  rw [← (unchanged_of_exec answer).inputs]
  rfl

/-- Settles O9: the fetched word decodes, its op completes, and one entry is used up. -/
theorem stepRunsDecodedOp : Obligations.StepRunsDecodedOp := by
  intro s cw i low word op
  obtain ⟨t, answer, -⟩ := exec_completes i s
  exact ⟨t, answer, (step_of_decodeWord low word op answer).trans (congrArg _ (consumeInput_of_exec answer))⟩

/-- Settles O10: there is no word above 68, and the two kinds of reserved words are the decoder's two rejections. -/
theorem stepRefusesReservedAndBeyondRom : Obligations.StepRefusesReservedAndBeyondRom := fun _ low =>
  ⟨fun beyond => step_of_fetch_eq_none low (Memory.read_outside _ beyond), fun _ word =>
    ⟨fun high => step_of_decodeWord_eq_error low word (decodeWord_of_reservedOp high), fun formatZ nonzero =>
      step_of_decodeWord_eq_error low word (decodeWord_of_reservedLowNibble formatZ nonzero)⟩⟩

/-- Settles O14: a reset step and an op both keep the list the ROM is read through. -/
theorem noStepWritesTheRom : Obligations.NoStepWritesTheRom := by
  intro s t h
  have kept : t.rom = s.rom := by
    rcases step_cases h with ⟨-, rfl⟩ | ⟨-, _, _, u, -, -, answer, rfl⟩
    · rfl
    · exact (unchanged_of_exec answer).rom
  exact ⟨kept, fun a => by rw [kept]⟩

/-! ## A placed word -/

theorem State.ports_withFetchWord_rst (s : State) (nbits w : Nat) : (s.withFetchWord nbits w).ports.rst = false := by
  cases host : s.inputs <;> simp [State.withFetchWord, State.ports, withoutReset, host, HostInput.idle]

theorem State.fetch_withFetchWord (s : State) (nbits w : Nat) :
    (s.withFetchWord nbits w).fetch = some ((tableBytes nbits w).headD 0) := by
  refine Memory.read_write_same s.rom _ ?_
  split
  case isTrue inside => exact inside
  case isFalse => decide

/-- A table row's word decodes as the control word its bytes begin with. -/
theorem decodeWord_of_decodeTableWord {nbits w : Nat} {i : Instr} (h : decodeTableWord nbits w = some i) :
    decodeWord ((tableBytes nbits w).headD 0) = .ok i := by
  unfold decodeTableWord at h
  split at h
  case h_2 => cases h
  case h_1 op rest decoded =>
    cases h
    obtain ⟨cw, bytes, word⟩ := decode_eq_ok_iff.mp decoded
    rw [bytes]
    exact word

/-- Settles O8: the placed word is the one fetched, and `rst` is low when it is. -/
theorem placedWordIsRunNext : Obligations.PlacedWordIsRunNext := by
  intro s nbits w i h
  obtain ⟨t, answer, -⟩ := exec_completes i (s.withFetchWord nbits w)
  exact ⟨t, answer, step_of_decodeWord (s.ports_withFetchWord_rst nbits w) (s.fetch_withFetchWord nbits w)
    (decodeWord_of_decodeTableWord h) answer⟩

/-! ## Reset -/

/-- `InternalZero` is about the data registers, which the ROM and the host's inputs are not among. -/
theorem internalZero_applyReset (s : State) : InternalZero s.applyReset.consumeInput :=
  ⟨internalZero_reset.S, internalZero_reset.F, internalZero_reset.TK1, internalZero_reset.TK2,
    internalZero_reset.RTK, internalZero_reset.B⟩

/-- Settles O11: the reset state, and from it `WAIT`, the op at address 0. -/
theorem resetStepClearsEverything : Obligations.ResetStepClearsEverything := by
  intro s reset
  refine ⟨_, step_of_reset reset, internalZero_applyReset s, reset_OUT_getElem, rfl, rfl, rfl, rfl, rfl,
    fun hardwired low => ?_⟩
  obtain ⟨u, answer, -⟩ := exec_completes .wait s.applyReset.consumeInput
  exact ⟨u, answer, (step_of_romOp (s := s.applyReset.consumeInput) hardwired low ((romOp_eq_wait_iff 0).mpr rfl)
    answer).trans (congrArg _ (consumeInput_of_exec answer))⟩

end Sys2Proof.Machine
end

section
/-! SUPPORT. What a step does from a state with the hardwired ROM, in the five cases that R69's order tells apart, and
the invariants that follow (spec/10_state.md R18 to R26, spec/60_exceptions.md R160). -/

namespace Sys2Proof.Machine

variable {s t : State}

/-- R136: `WAIT` at address 0 accepts a `start`. -/
theorem step_of_accept (hardwired : s.rom = []) (idle : s.step = 0) (low : s.ports.rst = false)
    (start : s.ports.start = true) : step s = .next s.acceptStart.consumeInput :=
  step_of_romOp hardwired low (idle ▸ (romOp_eq_wait_iff _).mpr rfl) (exec_wait_start s start)

/-- R136: `WAIT` at address 0 without `start` uses up the host's entry and does nothing else. -/
theorem step_of_idle (hardwired : s.rom = []) (idle : s.step = 0) (low : s.ports.rst = false)
    (start : s.ports.start = false) : step s = .next s.consumeInput := by
  have stays : exec .wait s = .next s := (exec_wait_idle s start).trans (congrArg _ (setStep_eq_self idle))
  exact step_of_romOp hardwired low (idle ▸ (romOp_eq_wait_iff _).mpr rfl) stays

/-- R142: `FIN` at address 68 ends the evaluation. -/
theorem step_of_finish (hardwired : s.rom = []) (last : s.step.toNat = 68) (low : s.ports.rst = false) :
    step s = .next (s.clearInternal.flagsOnFinish.setStep 0).consumeInput :=
  step_of_romOp hardwired low ((romOp_eq_fin_iff _).mpr last) (exec_fin s)

/-- R69: at the addresses 1 to 67 stands an op that moves on to the next address and writes no status. -/
theorem exists_romOp_of_running {n : Nat} (first : 1 ≤ n) (last : n ≤ 67) :
    ∃ i, romOp n = some i ∧ i ≠ .wait ∧ i ≠ .fin := by
  obtain ⟨i, op, notWait⟩ := exists_romOp_ne_wait (Nat.one_le_iff_ne_zero.mp first)
    (show n < Config.nsteps from lt_of_le_of_lt last (by decide))
  refine ⟨i, op, notWait, fun isFin => ?_⟩
  have atEnd : n = 68 := (romOp_eq_fin_iff n).mp (isFin ▸ op)
  omega

/-- R134 on the number: the 7-bit register does not wrap below 127. -/
theorem toNat_add_one_of_le {n : BitVec 7} (h : n.toNat ≤ 67) : (n + 1).toNat = n.toNat + 1 :=
  BitVec.toNat_add_of_lt (show n.toNat + 1 < 2 ^ 7 by omega)

/-- R134, R19, R20: an op between `WAIT` and `FIN` counts `step` on and leaves `busy` and `done` alone. -/
theorem exec_running {i : Instr} (h : exec i s = .next t) (notWait : i ≠ .wait) (notFin : i ≠ .fin) :
    t.step = s.step + 1 ∧ t.busy = s.busy ∧ t.done = s.done ∧ t.rom = s.rom ∧ t.inputs = s.inputs := by
  have frame := unchanged_of_exec h
  have status : ¬ (opWrites i .busy ∨ opWrites i .done) := fun w => (opWrites_status w).elim notWait notFin
  obtain ⟨u, answer, advanced⟩ := exec_advances s notWait notFin
  obtain rfl := exec_unique answer h
  exact ⟨advanced, frame.registers .busy fun w => status (.inl w), frame.registers .done fun w => status (.inr w),
    frame.rom, frame.inputs⟩

/-- What a step from the hardwired ROM can do: R133's reset, the three ends of R134, or an op in between. -/
inductive HardwiredStep (s : State) : State → Prop where
  | reset (rst : s.ports.rst = true) : HardwiredStep s s.applyReset.consumeInput
  | accept (low : s.ports.rst = false) (idle : s.step = 0) (start : s.ports.start = true) :
      HardwiredStep s s.acceptStart.consumeInput
  | idle (low : s.ports.rst = false) (idle : s.step = 0) (start : s.ports.start = false) :
      HardwiredStep s s.consumeInput
  | op {i : Instr} {u : State} (low : s.ports.rst = false) (first : 1 ≤ s.step.toNat) (last : s.step.toNat ≤ 67)
      (found : romOp s.step.toNat = some i) (notWait : i ≠ .wait) (notFin : i ≠ .fin) (answer : exec i s = .next u) :
      HardwiredStep s u.consumeInput
  | finish (low : s.ports.rst = false) (last : s.step.toNat = 68) :
      HardwiredStep s (s.clearInternal.flagsOnFinish.setStep 0).consumeInput

/-- `step` is 0 or an address from 1 on. -/
theorem one_le_step_of_ne_zero (running : s.step ≠ 0) : 1 ≤ s.step.toNat :=
  Nat.one_le_iff_ne_zero.mpr fun zero => running (BitVec.eq_of_toNat_eq zero)

/-- From the hardwired ROM and `step` in 0..68 a step answers. -/
theorem step_hardwired (hardwired : s.rom = []) (inside : s.step.toNat ≤ 68) :
    ∃ t, step s = .next t ∧ HardwiredStep s t := by
  cases low : s.ports.rst with
  | true => exact ⟨_, step_of_reset low, .reset low⟩
  | false =>
    by_cases idle : s.step = 0
    · cases start : s.ports.start with
      | true => exact ⟨_, step_of_accept hardwired idle low start, .accept low idle start⟩
      | false => exact ⟨_, step_of_idle hardwired idle low start, .idle low idle start⟩
    · have first := one_le_step_of_ne_zero idle
      by_cases last : s.step.toNat = 68
      · exact ⟨_, step_of_finish hardwired last low, .finish low last⟩
      · have before : s.step.toNat ≤ 67 := by omega
        obtain ⟨i, found, notWait, notFin⟩ := exists_romOp_of_running first before
        obtain ⟨u, answer, -⟩ := exec_completes i s
        exact ⟨_, step_of_romOp hardwired low found answer, .op low first before found notWait notFin answer⟩

/-- R18: the address stays in 0..68. -/
theorem HardwiredStep.step_le (way : HardwiredStep s t) : t.step.toNat ≤ 68 := by
  cases way with
  | reset => exact Nat.zero_le 68
  | accept => exact show (1 : BitVec 7).toNat ≤ 68 by decide
  | idle _ idle => exact idle ▸ Nat.zero_le 68
  | op _ _ last _ notWait notFin answer =>
    obtain ⟨advanced, -⟩ := exec_running answer notWait notFin
    rw [State.consumeInput_step, advanced, toNat_add_one_of_le last]
    omega
  | finish => exact Nat.zero_le 68

/-- Settles O13: each op completes, and a step from the hardwired ROM answers within it. -/
theorem coreIsTotal : Obligations.CoreIsTotal := by
  refine ⟨fun i s => ?ops, fun s hardwired inside => ?step⟩
  case ops =>
    obtain ⟨t, answer, -⟩ := exec_completes i s
    exact ⟨t, answer⟩
  case step =>
    obtain ⟨t, answer, way⟩ := step_hardwired hardwired inside
    obtain ⟨kept, -⟩ := noStepWritesTheRom s t answer
    exact ⟨t, answer, kept.trans hardwired, way.step_le⟩

/-! ## The invariant -/

/-- The data registers do not depend on what the host drives. -/
theorem InternalZero.setInputs (zero : InternalZero s) (ps : List HostInput) : InternalZero (s.setInputs ps) :=
  ⟨zero.S, zero.F, zero.TK1, zero.TK2, zero.RTK, zero.B⟩

/-- The invariant does not speak of the host's inputs, so using one up keeps it. -/
theorem CoreInv.setInputs (inv : CoreInv s) (ps : List HostInput) : CoreInv (s.setInputs ps) :=
  ⟨inv.rom, inv.step_le, inv.busy_iff, inv.done_idle, fun idle => (inv.idle_zero idle).setInputs ps, inv.idle_out⟩

/-- R25, R26. -/
theorem coreInv_reset : CoreInv State.reset where
  rom := rfl
  step_le := by decide
  busy_iff := by decide
  done_idle := nofun
  idle_zero _ := internalZero_reset
  idle_out _ _ := reset_OUT_getElem

/-- With the hardwired ROM, reset gives the state of R25 under the same host. -/
theorem State.applyReset_eq (hardwired : s.rom = []) : s.applyReset = State.reset.setInputs s.inputs := by
  rw [State.applyReset, hardwired]
  rfl

/-- R18 to R20: a state in which an evaluation runs. -/
theorem coreInv_of_running (hardwired : s.rom = []) (inside : s.step.toNat ≤ 68) (running : s.step ≠ 0)
    (busy : s.busy = true) (done : s.done = false) : CoreInv s where
  rom := hardwired
  step_le := inside
  busy_iff := iff_of_true busy running
  done_idle isDone := absurd (done.symm.trans isDone) Bool.false_ne_true
  idle_zero idle := absurd idle running
  idle_out idle := absurd idle running

/-- R142: the state `FIN` leaves. -/
theorem coreInv_finish (hardwired : s.rom = []) : CoreInv (s.clearInternal.flagsOnFinish.setStep 0) where
  rom := hardwired
  step_le := Nat.zero_le 68
  busy_iff := iff_of_false Bool.false_ne_true fun running => running rfl
  done_idle _ := rfl
  idle_zero _ := (internalZero_clearInternal s).flagsOnFinish_setStep 0
  idle_out _ notDone := absurd notDone.symm Bool.false_ne_true

theorem CoreInv.busy_of_running (inv : CoreInv s) (running : s.step ≠ 0) : s.busy = true := inv.busy_iff.mpr running

theorem CoreInv.done_of_running (inv : CoreInv s) (running : s.step ≠ 0) : s.done = false :=
  Bool.eq_false_iff.mpr fun isDone => running (inv.done_idle isDone)

/-- R18 to R20, R26: each way a step can go keeps the invariant. -/
theorem HardwiredStep.coreInv (way : HardwiredStep s t) (inv : CoreInv s) : CoreInv t := by
  have inside := way.step_le
  cases way with
  | reset =>
    rw [State.applyReset_eq inv.rom]
    exact coreInv_reset.setInputs _
  | accept => exact coreInv_of_running inv.rom inside (show (1 : BitVec 7) ≠ 0 by decide) rfl rfl
  | idle => exact inv.setInputs _
  | @op i u _ first last _ notWait notFin answer =>
    obtain ⟨advanced, busy, done, rom, -⟩ := exec_running answer notWait notFin
    have running : s.step ≠ 0 := fun idle => absurd (idle ▸ first) (by decide)
    have counted : u.step ≠ 0 := fun idle => by
      have count := toNat_add_one_of_le last
      rw [← advanced, idle] at count
      cases count
    exact coreInv_of_running (rom.trans inv.rom) inside counted (busy.trans (inv.busy_of_running running))
      (done.trans (inv.done_of_running running))
  | finish => exact (coreInv_finish inv.rom).setInputs _

/-- Settles O48: a state with the invariant has the hardwired ROM and `step` in 0..68. -/
theorem invariantKeptByEveryStep : Obligations.InvariantKeptByEveryStep := by
  intro s inv
  obtain ⟨t, answer, way⟩ := step_hardwired inv.rom inv.step_le
  exact ⟨t, answer, way.coreInv inv⟩

/-- The reset state says nothing of an evaluation. -/
theorem lastInv_reset (ps : List HostInput) : LastInv (State.reset.setInputs ps) none where
  core := coreInv_reset.setInputs ps
  done_result := nofun
  fresh_none _ _ := rfl
  running running := absurd rfl running

/-- Settles O47: a launch state is the reset state under some host. -/
theorem invariantAtLaunch : Obligations.InvariantAtLaunch := by
  rintro s ⟨ps, rfl⟩
  exact ⟨coreInv_reset.setInputs ps, lastInv_reset ps⟩

/-! ## Staying idle -/

/-- The first of the host's next entries is what the ports carry. -/
theorem State.ports_of_forall_mem_take {p : HostInput → Prop} {n : Nat} (none : p HostInput.idle)
    (all : ∀ q ∈ s.inputs.take (n + 1), p q) : p s.ports := by
  cases host : s.inputs with
  | nil => exact (s.ports_nil host).symm ▸ none
  | cons q qs => exact (s.ports_cons host).symm ▸ all q (by simp [host])

/-- The host's next entries but the first are those after the step. -/
theorem State.forall_mem_take_tail {p : HostInput → Prop} {n : Nat} (all : ∀ q ∈ s.inputs.take (n + 1), p q) :
    ∀ q ∈ s.inputs.tail.take n, p q := fun q mem => all q <| by
  cases host : s.inputs with
  | nil => simp [host] at mem
  | cons r rs => exact List.mem_cons_of_mem r (by simpa [host] using mem)

/-- Settles O19, by induction on the number of steps, each of which leaves all but the inputs. -/
theorem idleStaysIdle : Obligations.IdleStaysIdle := by
  intro n
  induction n with
  | zero => exact fun s _ _ _ => runFor_zero s
  | succ n ih =>
    intro s hardwired idle quiet
    obtain ⟨low, start⟩ := State.ports_of_forall_mem_take ⟨rfl, rfl⟩ quiet
    have rest := ih s.consumeInput hardwired idle (State.forall_mem_take_tail quiet)
    rw [runFor_succ n (step_of_idle hardwired idle low start), rest, State.consumeInput_inputs, List.drop_tail]
    rfl

end Sys2Proof.Machine
end

section
/-! SUPPORT. One op of an evaluation moves the registers from what R69's order puts there at its address to what it
puts there at the next one (spec/30_encoding.md R69, spec/43_evaluator.md R130). -/

namespace Sys2Proof.Machine

variable {m t k : Block} {old u v : State} {n : Nat}

/-- The registers say nothing of what the host drives. -/
theorem EvalPoint.setInputs (point : EvalPoint m t k old n v) (ps : List HostInput) :
    EvalPoint m t k old n (v.setInputs ps) :=
  ⟨point.S, point.TK1, point.TK2, point.RTK, point.F, point.B, point.OUT⟩

/-- From address 47 on the schedule store is complete. -/
theorem EvalPoint.rtk_complete (point : EvalPoint m t k old n v) (h : 47 ≤ n) (r : Fin 16) :
    v.RTK[r] = (schedule t k)[r] := by
  rw [point.RTK, if_pos (by omega)]

/-- R107: the round tweakey `r` of the schedule. -/
theorem getElem_schedule (t k : Block) (r : Fin 16) : (schedule t k)[r] = roundTweakey t k r := by
  rw [schedule, Fin.getElem_fin, Vector.getElem_ofFn]

/-- R136: the state in which the evaluation begins. -/
theorem evalPoint_acceptStart {s : State} (accepts : Accepts s m t k) : EvalPoint m t k s 1 s.acceptStart where
  S := accepts.message.trans (trunkAt_message (by decide)).symm
  TK1 := accepts.tweak.trans (congrArg Prod.fst (tweakeyHalvesAt_rtk 0 (by decide))).symm
  TK2 := accepts.key.trans (congrArg Prod.snd (tweakeyHalvesAt_rtk 0 (by decide))).symm
  RTK r := (if_neg (by omega)).symm
  F := rfl
  B _ := rfl
  OUT := rfl

/-- An op of the schedule, at addresses 1 to 48: it moves the halves or the schedule store and nothing else. -/
theorem EvalPoint.scheduleOp (point : EvalPoint m t k old n v) (before : n ≤ 48)
    (kept : u.S = v.S ∧ u.F = v.F ∧ u.B = v.B ∧ u.OUT = v.OUT)
    (halves : (u.TK1, u.TK2) = tweakeyHalvesAt t k (n + 1))
    (store : ∀ r : Fin 16, u.RTK[r] = if 1 + 3 * r.val < n + 1 then (schedule t k)[r] else old.RTK[r]) :
    EvalPoint m t k old (n + 1) u := by
  obtain ⟨S, F, B, OUT⟩ := kept
  refine ⟨?S, congrArg Prod.fst halves, congrArg Prod.snd halves, store, ?F, fun i => ?B, ?OUT⟩
  case S => rw [S, point.S, trunkAt_message (by omega), trunkAt_message (by omega)]
  case F => rw [F, point.F, if_pos (by omega), if_pos (by omega)]
  case B => rw [B, point.B, if_pos (by omega), if_pos (by omega)]
  case OUT => rw [OUT, point.OUT, if_pos (by omega), if_pos (by omega)]

/-- An op behind the schedule leaves the halves and the complete store. -/
theorem EvalPoint.afterSchedule (point : EvalPoint m t k old n v) (after : 49 ≤ n)
    (kept : u.TK1 = v.TK1 ∧ u.TK2 = v.TK2 ∧ u.RTK = v.RTK)
    (S : u.S = trunkAt m (schedule t k) (n + 1))
    (F : u.F = if n + 1 ≤ 57 then old.F else forkState m (schedule t k))
    (B : ∀ i : Fin 8, u.B[i] =
      if n + 1 ≤ 57 then old.B[i] else laneAt (forkState m (schedule t k)) (schedule t k) i (n + 1))
    (OUT : u.OUT = if n + 1 ≤ 67 then old.OUT else eval m t k) : EvalPoint m t k old (n + 1) u := by
  obtain ⟨TK1, TK2, RTK⟩ := kept
  have halves : tweakeyHalvesAt t k n = tweakeyHalvesAt t k (n + 1) :=
    (tweakeyHalvesAt_after after).trans (tweakeyHalvesAt_after (by omega)).symm
  refine ⟨S, ?TK1, ?TK2, fun r => ?RTK, F, B, OUT⟩
  case TK1 => rw [TK1, point.TK1, halves]
  case TK2 => rw [TK2, point.TK2, halves]
  case RTK => rw [RTK, point.rtk_complete (by omega), if_pos (by omega)]

/-- An op of the trunk, at addresses 49 to 56. -/
theorem EvalPoint.trunkOp {X : Block} (point : EvalPoint m t k old n v) (after : 49 ≤ n) (before : n ≤ 56)
    (S : X = trunkAt m (schedule t k) (n + 1)) : EvalPoint m t k old (n + 1) (v.setS X).nextStep := by
  refine point.afterSchedule after ⟨rfl, rfl, rfl⟩ S ?F (fun i => ?B) ?OUT
  case F => exact point.F.trans (by rw [if_pos (by omega), if_pos (by omega)])
  case B => exact (point.B i).trans (by rw [if_pos (by omega), if_pos (by omega)])
  case OUT => exact point.OUT.trans (by rw [if_pos (by omega), if_pos (by omega)])

/-- An op of the lanes, at addresses 58 to 66. -/
theorem EvalPoint.laneOp {f : Fin 8 → Block → Block} (point : EvalPoint m t k old n v) (after : 58 ≤ n)
    (before : n ≤ 66) (lanes : ∀ i, f i (laneAt (forkState m (schedule t k)) (schedule t k) i n) =
      laneAt (forkState m (schedule t k)) (schedule t k) i (n + 1)) :
    EvalPoint m t k old (n + 1) (v.mapLanes f).nextStep := by
  refine point.afterSchedule (by omega) ⟨rfl, rfl, rfl⟩ ?S ?F (fun i => ?B) ?OUT
  case S => exact point.S.trans ((trunkAt_fork (by omega)).trans (trunkAt_fork (by omega)).symm)
  case F => exact point.F.trans (by rw [if_neg (by omega), if_neg (by omega)])
  case B => rw [lane_mapLanes_nextStep, point.B, if_neg (by omega), if_neg (by omega), lanes]
  case OUT => exact point.OUT.trans (by rw [if_pos (by omega), if_pos (by omega)])

/-- The key lane `i` uses once the schedule is complete. -/
theorem EvalPoint.laneKey (point : EvalPoint m t k old n v) (h : 47 ≤ n) (r : Fin 16) (i : Fin 8) :
    v.laneKey r i = branchKey (schedule t k)[r] (branchConstant i) := by
  rw [State.laneKey_eq, point.rtk_complete h]

/-- `RTK r` fills entry `r` of the schedule store (R110, R107). -/
theorem EvalPoint.rtk {r : Fin 16} (point : EvalPoint m t k old (1 + 3 * r.val) v) :
    EvalPoint m t k old (1 + 3 * r.val + 1) (v.writeRTK r (rtkAssemble v.TK1 v.TK2 r)).nextStep := by
  have halves := tweakeyHalvesAt_rtk (tweak := t) (key := k) r.val (by omega)
  have next : 1 + 3 * r.val + 1 = 2 + 3 * r.val := by omega
  refine point.scheduleOp (by omega) (by simp) ?halves fun q => ?store
  case halves =>
    rw [next, tweakeyHalvesAt_tkh r.val r.isLt, ← halves]
    exact Prod.ext point.TK1 point.TK2
  case store =>
    rw [State.nextStep_RTK]
    by_cases same : q = r
    · subst same
      rw [State.writeRTK_same, if_pos (by omega), getElem_schedule, roundTweakey, point.TK1, point.TK2, halves]
    · have other : q.val ≠ r.val := fun eq => same (Fin.ext eq)
      rw [State.writeRTK_other v _ same, point.RTK]
      exact if_congr (by omega) rfl rfl

/-- `TKH` permutes both halves (R111). -/
theorem EvalPoint.tkh {r : Fin 16} (point : EvalPoint m t k old (2 + 3 * r.val) v) :
    EvalPoint m t k old (2 + 3 * r.val + 1) ((v.setTK1 (hPerm v.TK1)).setTK2 (hPerm v.TK2)).nextStep := by
  have halves := tweakeyHalvesAt_tkh (tweak := t) (key := k) r.val r.isLt
  have next : 2 + 3 * r.val + 1 = 3 + 3 * r.val := by omega
  refine point.scheduleOp (by omega) (by simp) ?halves fun q => ?store
  case halves =>
    rw [next, tweakeyHalvesAt_tkg r.val r.isLt, ← halves, ← point.TK1, ← point.TK2]
    rfl
  case store =>
    rw [State.nextStep_RTK, State.setTK2_RTK, State.setTK1_RTK, point.RTK]
    exact if_congr (by omega) rfl rfl

/-- `TKG` ends round `r` of the schedule (R112, R106). -/
theorem EvalPoint.tkg {r : Fin 16} (point : EvalPoint m t k old (3 + 3 * r.val) v) :
    EvalPoint m t k old (3 + 3 * r.val + 1) (v.setTK1 (gBlock v.TK1)).nextStep := by
  have halves := tweakeyHalvesAt_tkg (tweak := t) (key := k) r.val r.isLt
  have next : 3 + 3 * r.val + 1 = 1 + 3 * (r.val + 1) := by omega
  refine point.scheduleOp (by omega) (by simp) ?halves fun q => ?store
  case halves =>
    have TK1 := point.TK1.trans (congrArg Prod.fst halves)
    have TK2 := point.TK2.trans (congrArg Prod.snd halves)
    rw [next, tweakeyHalvesAt_rtk (r.val + 1) (by omega), State.nextStep_TK1, State.setTK1_TK1, State.nextStep_TK2,
      State.setTK1_TK2, TK1, TK2]
    rfl
  case store =>
    rw [State.nextStep_RTK, State.setTK1_RTK, point.RTK]
    exact if_congr (by omega) rfl rfl

/-- `FORK` saves the fork state and seeds the lanes with it (R137). -/
theorem EvalPoint.fork (point : EvalPoint m t k old 57 v) :
    EvalPoint m t k old 58 ((v.setF v.S).mapLanes fun _ _ => v.S).nextStep := by
  have S : v.S = forkState m (schedule t k) := point.S.trans (trunkAt_fork le_rfl)
  refine point.afterSchedule (by decide) ⟨rfl, rfl, rfl⟩ (S.trans (trunkAt_fork (by decide)).symm) S (fun i => ?B)
    point.OUT
  case B => exact (lane_mapLanes_nextStep _ _ i).trans S

/-- `MASK 15` emits the output of every lane (R141, R130 step 9). -/
theorem EvalPoint.maskedLane (point : EvalPoint m t k old 67 v) (i : Fin 8) :
    v.maskedLane 15 i = outputLane m t k i := by
  rw [State.maskedLane, point.B, point.F, point.laneKey (by decide), if_neg (by decide), if_neg (by decide),
    laneAt_branch i le_rfl]
  rfl

/-- `MASK 15` leaves the result in `OUT` (R141). -/
theorem EvalPoint.mask (point : EvalPoint m t k old 67 v) :
    EvalPoint m t k old 68 (v.setOUT (memWriteOutAll v.OUT (v.maskedLane 15))).nextStep := by
  have result : memWriteOutAll v.OUT (v.maskedLane 15) = eval m t k := eq_of_slots_eq fun i j => by
    rw [memWriteOutAll_slot, eval_slot, point.maskedLane]
  refine point.afterSchedule (by decide) (by simp) ?S ?F (fun i => ?B) result
  case S => rw [State.nextStep_S, State.setOUT_S, point.S, trunkAt_fork (by decide), trunkAt_fork (by decide)]
  case F => rw [State.nextStep_F, State.setOUT_F, point.F, if_neg (by decide), if_neg (by decide)]
  case B => rw [State.nextStep_B, State.setOUT_B, point.B, laneAt_branch i le_rfl, laneAt_branch i (by decide)]; rfl

/-- R69, R130: the op at address `n` moves an evaluation on to address `n + 1`. -/
theorem EvalPoint.advance {i : Instr} (point : EvalPoint m t k old n v) (found : romOp n = some i) (notWait : i ≠ .wait)
    (notFin : i ≠ .fin) (answer : exec i v = .next u) : EvalPoint m t k old (n + 1) u := by
  cases i with
  | wait => exact absurd rfl notWait
  | fin => exact absurd rfl notFin
  | rtk r =>
    obtain rfl := exec_unique (exec_rtk v r) answer
    obtain rfl := (romOp_eq_rtk_iff n r).mp found
    exact point.rtk
  | tkh =>
    obtain rfl := exec_unique (exec_tkh v) answer
    obtain ⟨r, rfl⟩ := (romOp_eq_tkh_iff n).mp found
    exact point.tkh
  | tkg =>
    obtain rfl := exec_unique (exec_tkg v) answer
    obtain ⟨r, rfl⟩ := (romOp_eq_tkg_iff n).mp found
    exact point.tkg
  | xork r =>
    obtain rfl := exec_unique (exec_xork v r) answer
    obtain ⟨rfl, rfl⟩ := (romOp_eq_xork_iff n r).mp found
    refine point.trunkOp (by decide) (by decide) ?_
    rw [point.S, State.rtkOperand, point.rtk_complete (by decide)]
    rfl
  | aesr r =>
    obtain rfl := exec_unique (exec_aesr v r) answer
    obtain ⟨first, last, rfl⟩ := (romOp_eq_aesr_iff n r).mp found
    refine point.trunkOp (by omega) (by omega) ?_
    rw [point.S, State.rtkOperand, point.rtk_complete (by omega), ← trunkAt_round r first last]
    exact congrArg _ (by omega)
  | aesrz =>
    obtain rfl := exec_unique (exec_aesrz v) answer
    obtain rfl := (romOp_eq_aesrz_iff n).mp found
    exact point.trunkOp (by decide) (by decide) (by rw [point.S, ← trunkAt_closing])
  | fork =>
    obtain rfl := exec_unique (exec_fork v) answer
    obtain rfl := (romOp_eq_fork_iff n).mp found
    exact point.fork
  | bxork r =>
    obtain rfl := exec_unique (exec_bxork v r) answer
    obtain ⟨rfl, rfl⟩ := (romOp_eq_bxork_iff n r).mp found
    refine point.laneOp (by decide) (by decide) fun l => ?_
    rw [point.laneKey (by decide)]
    exact (laneAt_whitened l).symm
  | baesr r =>
    obtain rfl := exec_unique (exec_baesr v r) answer
    obtain ⟨first, last, rfl⟩ := (romOp_eq_baesr_iff n r).mp found
    refine point.laneOp (by omega) (by omega) fun l => ?_
    rw [point.laneKey (by omega), ← laneAt_round l r first last]
    exact congrArg _ (by omega)
  | baesrz =>
    obtain rfl := exec_unique (exec_baesrz v) answer
    obtain rfl := (romOp_eq_baesrz_iff n).mp found
    exact point.laneOp (by decide) (by decide) fun l => (laneAt_closing l).symm
  | mask r =>
    obtain rfl := exec_unique (exec_mask v r) answer
    obtain ⟨rfl, rfl⟩ := (romOp_eq_mask_iff n r).mp found
    exact point.mask

end Sys2Proof.Machine
end

section
/-! SUPPORT. The 69 steps of an evaluation, address by address, and its end (spec/43_evaluator.md R144,
spec/70_reset_and_hazards.md R188, R190). -/

namespace Sys2Proof.Machine

variable {m t k : Block} {old s u v : State} {n : Nat}

/-- An evaluation of `m`, `t`, `k` accepted in `old` stands at address `n`. -/
structure RunningAt (m t k : Block) (old : State) (n : Nat) (v : State) : Prop where
  step : v.step.toNat = n
  busy : v.busy = true
  done : v.done = false
  rom : v.rom = []
  point : EvalPoint m t k old n v

theorem RunningAt.setInputs (run : RunningAt m t k old n v) (ps : List HostInput) :
    RunningAt m t k old n (v.setInputs ps) :=
  ⟨run.step, run.busy, run.done, run.rom, run.point.setInputs ps⟩

theorem runningAt_acceptStart (accepts : Accepts s m t k) : RunningAt m t k s 1 s.acceptStart :=
  ⟨rfl, rfl, rfl, accepts.rom, evalPoint_acceptStart accepts⟩

/-- An op between `WAIT` and `FIN` moves the evaluation on. -/
theorem RunningAt.advance {i : Instr} (run : RunningAt m t k old n v) (last : n ≤ 67) (found : romOp n = some i)
    (notWait : i ≠ .wait) (notFin : i ≠ .fin) (answer : exec i v = .next u) : RunningAt m t k old (n + 1) u := by
  obtain ⟨advanced, busy, done, rom, -⟩ := exec_running answer notWait notFin
  refine ⟨?_, busy.trans run.busy, done.trans run.done, rom.trans run.rom,
    run.point.advance found notWait notFin answer⟩
  rw [advanced, toNat_add_one_of_le (run.step ▸ last), run.step]

/-- With `rst` low the step at address `n` is that of the op there. -/
theorem RunningAt.next (run : RunningAt m t k old n v) (first : 1 ≤ n) (last : n ≤ 67) (low : v.ports.rst = false) :
    ∃ u, Machine.step v = .next u ∧ RunningAt m t k old (n + 1) u ∧ u.inputs = v.inputs.tail := by
  obtain ⟨i, found, notWait, notFin⟩ := exists_romOp_of_running first last
  obtain ⟨u, answer, frame⟩ := exec_completes i v
  exact ⟨u.consumeInput, step_of_romOp run.rom low (run.step.symm ▸ found) answer,
    (run.advance last found notWait notFin answer).setInputs _, congrArg List.tail frame.inputs⟩

/-! ## The host during a run -/

theorem NoResetFor.mono {k : Nat} (quiet : NoResetFor n s) (le : k ≤ n) : NoResetFor k s :=
  fun p mem => quiet p (List.take_subset_take_left _ le mem)

/-- The next of the steps without reset has `rst` low. -/
theorem NoResetFor.ports_rst (quiet : NoResetFor (n + 1) s) : s.ports.rst = false :=
  State.ports_of_forall_mem_take (p := (·.rst = false)) rfl quiet

/-- The steps without reset that are left after one of them. -/
theorem NoResetFor.tail (quiet : NoResetFor (n + 1) s) (later : v.inputs = s.inputs.tail) : NoResetFor n v :=
  fun p mem => State.forall_mem_take_tail quiet p (later ▸ mem)

/-- After `n` of the steps without reset there is one left. -/
theorem NoResetFor.drop (quiet : NoResetFor (n + 1) s) (later : v.inputs = s.inputs.drop n) : NoResetFor 1 v := by
  refine fun p mem => quiet p ?_
  have window : v.inputs.take 1 = (s.inputs.take (n + 1)).drop n := by simp [later, List.drop_take]
  exact List.mem_of_mem_drop (window ▸ mem)

/-- One more step at the end of a run. -/
theorem runFor_succ_last (run : runFor n s = .next v) (last : step v = .next u) : runFor (n + 1) s = .next u := by
  rw [runFor_add n 1 run, runFor_succ 0 last, runFor_zero]

/-! ## The run -/

/-- R188, R190: `n` steps after it was accepted an evaluation stands at address `n`. -/
theorem Accepts.runningAt (accepts : Accepts s m t k) (first : 1 ≤ n) (last : n ≤ 68) (quiet : NoResetFor n s) :
    ∃ v, runFor n s = .next v ∧ RunningAt m t k s n v ∧ v.inputs = s.inputs.drop n := by
  induction n, first using Nat.le_induction with
  | base =>
    have answer := step_of_accept accepts.rom accepts.idle accepts.rst accepts.start
    exact ⟨_, runFor_succ_last (runFor_zero s) answer, (runningAt_acceptStart accepts).setInputs _,
      List.drop_one.symm⟩
  | succ n first ih =>
    obtain ⟨v, run, at_, inputs⟩ := ih (by omega) (quiet.mono n.le_succ)
    obtain ⟨u, answer, next, rest⟩ := at_.next first (by omega) (quiet.drop inputs).ports_rst
    exact ⟨u, runFor_succ_last run answer, next, by rw [rest, inputs, List.tail_drop]⟩

/-- Settles O50, from the run of an accepted evaluation. -/
theorem evaluationPassesEachAddress : Obligations.EvaluationPassesEachAddress := by
  intro s m t k n accepts first last quiet
  obtain ⟨v, run, ⟨step, busy, done, rom, point⟩, inputs⟩ := accepts.runningAt first last quiet
  exact ⟨v, run, step, busy, done, rom, inputs, point⟩

/-- From 68 on `OUT` is the result. -/
theorem EvalPoint.result (point : EvalPoint m t k old 68 v) : v.OUT = eval m t k :=
  point.OUT.trans (if_neg (by decide))

/-- R142, R144: the state in which an evaluation ends. -/
structure EndsWith (m t k : Block) (u : State) : Prop where
  step : u.step = 0
  busy : u.busy = false
  done : u.done = true
  OUT : u.OUT = eval m t k
  zero : InternalZero u
  rom : u.rom = []

/-- R144: the 69th step is `FIN`, which keeps the result and clears the rest. -/
theorem Accepts.endsWith (accepts : Accepts s m t k) (quiet : NoResetFor 69 s) :
    ∃ u, runFor 69 s = .next u ∧ EndsWith m t k u ∧ u.inputs = s.inputs.drop 69 := by
  obtain ⟨v, run, atEnd, inputs⟩ := accepts.runningAt (n := 68) (by decide) le_rfl (quiet.mono (by decide))
  have answer := step_of_finish atEnd.rom atEnd.step (quiet.drop inputs).ports_rst
  refine ⟨_, runFor_succ_last run answer, ⟨rfl, rfl, rfl, atEnd.point.result, ?_, atEnd.rom⟩, ?_⟩
  · exact ((internalZero_clearInternal v).flagsOnFinish_setStep 0).setInputs _
  · exact (congrArg List.tail inputs).trans List.tail_drop

/-- Settles O49: the end of the run, and `busy` on the way. -/
theorem evaluationGivesEval : Obligations.EvaluationGivesEval := by
  intro s m t k accepts quiet
  refine ⟨?theEnd, fun n first last => ?theWay⟩
  case theEnd =>
    obtain ⟨u, run, ⟨step, busy, done, OUT, zero, rom⟩, inputs⟩ := accepts.endsWith quiet
    exact ⟨u, run, step, busy, done, OUT, zero, rom, inputs⟩
  case theWay =>
    obtain ⟨v, run, running, -⟩ := accepts.runningAt first last (quiet.mono (by omega))
    exact ⟨v, run, running.busy⟩

/-! ## What two evaluations have in common -/

/-- R26, R144: the end of an evaluation says nothing but its result. -/
theorem EndsWith.eq_of_same_inputs {u' : State} (ends : EndsWith m t k u) (ends' : EndsWith m t k u') :
    { u with inputs := [] } = { u' with inputs := [] } := by
  obtain ⟨step, busy, done, OUT, ⟨S, F, TK1, TK2, RTK, B⟩, rom⟩ := ends
  obtain ⟨step', busy', done', OUT', ⟨S', F', TK1', TK2', RTK', B'⟩, rom'⟩ := ends'
  have store : u.RTK = u'.RTK := Vector.ext fun r h => (RTK ⟨r, h⟩).trans (RTK' ⟨r, h⟩).symm
  have lanes : u.B = u'.B := Vector.ext fun i h => (B ⟨i, h⟩).trans (B' ⟨i, h⟩).symm
  exact State.eq_of_fields (S.trans S'.symm) (F.trans F'.symm) (TK1.trans TK1'.symm) (TK2.trans TK2'.symm) store lanes
    (OUT.trans OUT'.symm) (step.trans step'.symm) (busy.trans busy'.symm) (done.trans done'.symm)
    (rom.trans rom'.symm) rfl

/-- Settles O52: both evaluations end with the same result and nothing else. -/
theorem evaluationForgetsOldState : Obligations.EvaluationForgetsOldState := by
  intro s s' m t k accepts quiet accepts' quiet'
  obtain ⟨u, run, ends, -⟩ := accepts.endsWith quiet
  obtain ⟨u', run', ends', -⟩ := accepts'.endsWith quiet'
  exact ⟨u, u', run, run', ends.eq_of_same_inputs ends'⟩

/-- R166: until `MASK` the host sees a busy CORE and the old `OUT`. -/
theorem RunningAt.view (run : RunningAt m t k old n v) (before : n ≤ 67) :
    v.view = { out := old.OUT, busy := true, done := false } := by
  rw [State.view, run.busy, run.done, run.point.OUT, if_pos before]

/-- Settles O53: what the host sees names neither evaluation's inputs. -/
theorem viewHidesDataUntilMask : Obligations.ViewHidesDataUntilMask := by
  intro s s' m t k m' t' k' n accepts accepts' sameOut first before quiet quiet'
  obtain ⟨v, run, running, -⟩ := accepts.runningAt first (by omega) quiet
  obtain ⟨v', run', running', -⟩ := accepts'.runningAt first (by omega) quiet'
  exact ⟨v, v', run, run', by rw [running.view before, running'.view before, sameOut]⟩

end Sys2Proof.Machine
end

section
/-! SUPPORT. The most recently accepted evaluation, across every step (spec/10_state.md R20, R26). -/

namespace Sys2Proof.Machine

variable {s u : State} {last : Option (Block × Block × Block)}

theorem lastAfterStep_reset (rst : s.ports.rst = true) : lastAfterStep s last = none := by
  rw [lastAfterStep, if_pos rst]

theorem lastAfterStep_accept (low : s.ports.rst = false) (idle : s.step = 0) (start : s.ports.start = true) :
    lastAfterStep s last = some (s.ports.mIn, s.ports.tIn, s.ports.kIn) := by
  rw [lastAfterStep, low, if_neg Bool.false_ne_true, if_pos ⟨idle, start⟩]

theorem lastAfterStep_other (low : s.ports.rst = false) (other : s.step ≠ 0 ∨ s.ports.start = false) :
    lastAfterStep s last = last := by
  have noAccept : ¬ (s.step = 0 ∧ s.ports.start = true) := fun ⟨idle, start⟩ =>
    other.elim (absurd idle) fun noStart => Bool.false_ne_true (noStart.symm.trans start)
  rw [lastAfterStep, low, if_neg Bool.false_ne_true, if_neg noAccept]

/-- The host's inputs to come say nothing of the evaluation accepted last. -/
theorem LastInv.setInputs (inv : LastInv s last) (ps : List HostInput) : LastInv (s.setInputs ps) last where
  core := inv.core.setInputs ps
  done_result := inv.done_result
  fresh_none := inv.fresh_none
  running running := by
    obtain ⟨m, t, k, old, accepted, core, idle, point⟩ := inv.running running
    exact ⟨m, t, k, old, accepted, core, idle, point.setInputs ps⟩

/-- While an evaluation runs, `LastInv` is what it has put into the registers. -/
theorem lastInv_of_running {m t k : Block} {old : State} (core : CoreInv s) (running : s.step ≠ 0)
    (oldCore : CoreInv old) (oldIdle : old.step = 0) (point : EvalPoint m t k old s.step.toNat s) :
    LastInv s (some (m, t, k)) where
  core := core
  done_result isDone := absurd (core.done_idle isDone) running
  fresh_none idle := absurd idle running
  running _ := ⟨m, t, k, old, rfl, oldCore, oldIdle, point⟩

/-- Each way a step can go keeps what is said of the evaluation accepted last. -/
theorem HardwiredStep.lastInv (way : HardwiredStep s u) (inv : LastInv s last) : LastInv u (lastAfterStep s last) := by
  have core := way.coreInv inv.core
  cases way with
  | reset rst =>
    rw [lastAfterStep_reset rst, State.applyReset_eq inv.core.rom]
    exact lastInv_reset _
  | accept low idle start =>
    rw [lastAfterStep_accept low idle start]
    have accepts : Accepts s s.ports.mIn s.ports.tIn s.ports.kIn := ⟨inv.core.rom, idle, low, start, rfl, rfl, rfl⟩
    exact lastInv_of_running core (show (1 : BitVec 7) ≠ 0 by decide) inv.core idle
      ((evalPoint_acceptStart accepts).setInputs _)
  | idle low _ start =>
    rw [lastAfterStep_other low (.inr start)]
    exact inv.setInputs _
  | @op i u low first before found notWait notFin answer =>
    have running : s.step ≠ 0 := fun idle => absurd (idle ▸ first) (by decide)
    obtain ⟨advanced, -⟩ := exec_running answer notWait notFin
    have count : u.step.toNat = s.step.toNat + 1 := advanced ▸ toNat_add_one_of_le before
    have onward : u.step ≠ 0 := fun idle => by simp [idle] at count
    obtain ⟨m, t, k, old, rfl, oldCore, oldIdle, point⟩ := inv.running running
    have next := point.advance found notWait notFin answer
    rw [lastAfterStep_other low (.inl running)]
    exact lastInv_of_running core onward oldCore oldIdle (count.symm ▸ next.setInputs _)
  | finish low atEnd =>
    have running : s.step ≠ 0 := fun idle => by simp [idle] at atEnd
    obtain ⟨m, t, k, old, rfl, -, -, point⟩ := inv.running running
    rw [lastAfterStep_other low (.inl running)]
    refine ⟨core, fun _ => ⟨m, t, k, rfl, ?result⟩, fun _ notDone => absurd notDone.symm Bool.false_ne_true,
      fun onward => absurd rfl onward⟩
    case result => exact (atEnd ▸ point).result

theorem LastInv.step (inv : LastInv s last) : ∃ u, Machine.step s = .next u ∧ LastInv u (lastAfterStep s last) := by
  obtain ⟨u, answer, way⟩ := step_hardwired inv.core.rom inv.core.step_le
  exact ⟨u, answer, way.lastInv inv⟩

/-- Settles O51: the step lemma, and from it by induction every state a run from reset reaches. -/
theorem doneMeansLastResult : Obligations.DoneMeansLastResult := by
  refine ⟨fun s last => LastInv.step, fun s last reachable => ?_⟩
  induction reachable with
  | launch launch =>
    obtain ⟨ps, rfl⟩ := launch
    exact lastInv_reset ps
  | step _ answer ih =>
    obtain ⟨u, answer', inv⟩ := ih.step
    exact Host.Outcome.next.inj (answer'.symm.trans answer) ▸ inv

end Sys2Proof.Machine
end

section
/-! SUPPORT. Several copies of the machine under an interleaving: each moves as it does alone (spec/60_exceptions.md
R170). -/

namespace Sys2Proof.Machine

variable {s t u : State} {ms ms' : List State} {n : Nat}

/-- The first step of a run that answers. -/
theorem exists_step_of_runFor_succ (run : runFor (n + 1) s = .next u) :
    ∃ t, step s = .next t ∧ runFor n t = .next u := by
  cases first : step s with
  | next t => exact ⟨t, rfl, (runFor_succ n first).symm.trans run⟩
  | fault r => exact nomatch r
  | refused r => exact nomatch (runFor_refused n first).symm.trans run

theorem stepInstance_eq_set (found : ms[n]? = some s) (answer : step s = .next t) :
    stepInstance ms n = some (ms.set n t) := by
  simp only [stepInstance, found, answer]

/-- R170: after a step of copy `x`, copy `n` has the run to come that it had, less the step if it is `x`. -/
theorem exists_getElem?_set_run {x : Nat} {order : List Nat} {r : State} (found : ms[x]? = some r)
    (answer : step r = .next t) (there : ms[n]? = some s) : ∃ s', (ms.set x t)[n]? = some s' ∧
      runFor ((x :: order).count n) s = runFor (order.count n) s' := by
  by_cases moved : x = n
  · subst moved
    obtain rfl : r = s := Option.some.inj (found.symm.trans there)
    have inside : x < ms.length := (List.getElem?_eq_some_iff.mp found).1
    exact ⟨t, List.getElem?_set_self inside, by rw [List.count_cons_self, runFor_succ _ answer]⟩
  · exact ⟨s, by rw [List.getElem?_set_ne moved, there], by rw [List.count_cons_of_ne moved]⟩

/-- R170: where the runs of all copies answer, so do the runs to come after a step of copy `x`. -/
theorem runFor_answers_set {x : Nat} {order : List Nat} {r : State} (found : ms[x]? = some r)
    (answer : step r = .next t) (runs : ∀ n s, ms[n]? = some s → ∃ u, runFor ((x :: order).count n) s = .next u)
    {n : Nat} {s' : State} (there' : (ms.set x t)[n]? = some s') : ∃ u, runFor (order.count n) s' = .next u := by
  have inside : n < ms.length := List.length_set (as := ms) ▸ (List.getElem?_eq_some_iff.mp there').1
  have there : ms[n]? = some ms[n] := List.getElem?_eq_getElem inside
  obtain ⟨s'', there'', same⟩ := exists_getElem?_set_run (order := order) found answer there
  obtain rfl : s'' = s' := Option.some.inj (there''.symm.trans there')
  exact same ▸ runs n _ there

/-- R170: where every copy's own run answers, the interleaving answers, and each ends where it ends alone. -/
theorem runInterleaved_of_runFor {order : List Nat} (named : ∀ n ∈ order, n < ms.length)
    (runs : ∀ n s, ms[n]? = some s → ∃ u, runFor (order.count n) s = .next u) :
    ∃ ms', runInterleaved order ms = some ms' ∧ ms'.length = ms.length ∧
      ∀ n s, ms[n]? = some s → ∃ u, ms'[n]? = some u ∧ runFor (order.count n) s = .next u := by
  induction order generalizing ms with
  | nil => exact ⟨ms, rfl, rfl, fun n s there => ⟨s, there, runFor_zero s⟩⟩
  | cons x order ih =>
    have inside : x < ms.length := named x List.mem_cons_self
    have found : ms[x]? = some ms[x] := List.getElem?_eq_getElem inside
    obtain ⟨_, run⟩ := runs x _ found
    rw [List.count_cons_self] at run
    obtain ⟨t, answer, -⟩ := exists_step_of_runFor_succ run
    have sameLength : (ms.set x t).length = ms.length := List.length_set
    obtain ⟨ms', all, length, ends⟩ := ih (ms := ms.set x t)
      (fun n mem => sameLength ▸ named n (List.mem_cons_of_mem x mem))
      fun n s' there' => runFor_answers_set found answer runs there'
    refine ⟨ms', ?_, length.trans sameLength, fun n s there => ?_⟩
    · rw [runInterleaved, stepInstance_eq_set found answer]
      exact all
    · obtain ⟨s', there', same⟩ := exists_getElem?_set_run (order := order) found answer there
      rw [same]
      exact ends n s' there'

/-- R170: copies that meet the invariant answer under any interleaving, and meet it at its end. -/
theorem runInterleaved_coreInv {order : List Nat} (named : ∀ n ∈ order, n < ms.length) (inv : ∀ s ∈ ms, CoreInv s) :
    ∃ ms', runInterleaved order ms = some ms' ∧ ms'.length = ms.length ∧ ∀ s ∈ ms', CoreInv s := by
  induction order generalizing ms with
  | nil => exact ⟨ms, rfl, rfl, inv⟩
  | cons x order ih =>
    have inside : x < ms.length := named x List.mem_cons_self
    obtain ⟨t, answer, kept⟩ := invariantKeptByEveryStep ms[x] (inv _ (List.getElem_mem inside))
    have sameLength : (ms.set x t).length = ms.length := List.length_set
    obtain ⟨ms', all, length, inv'⟩ := ih (ms := ms.set x t)
      (fun n mem => sameLength ▸ named n (List.mem_cons_of_mem x mem)) fun s mem =>
        (List.mem_or_eq_of_mem_set mem).elim (inv s) fun same => same ▸ kept
    refine ⟨ms', ?_, length.trans sameLength, inv'⟩
    rw [runInterleaved, stepInstance_eq_set (List.getElem?_eq_getElem inside) answer]
    exact all

/-- Settles O54: a copy that is given the 69 steps of its evaluation makes them as it does alone. -/
theorem instancesDoNotInteract : Obligations.InstancesDoNotInteract := by
  refine ⟨fun order ms named runs => ?_, fun order ms => runInterleaved_coreInv⟩
  obtain ⟨ms', all, length, ends⟩ := runInterleaved_of_runFor named runs
  refine ⟨ms', all, length, fun n s there => ?_⟩
  obtain ⟨u, there', run⟩ := ends n s there
  refine ⟨u, there', run, fun m t k accepts quiet steps => ?_⟩
  obtain ⟨u', run', ⟨step, busy, done, OUT, zero, -⟩, -⟩ := accepts.endsWith quiet
  rw [steps] at run
  obtain rfl : u' = u := Host.Outcome.next.inj (run'.symm.trans run)
  exact ⟨step, busy, done, OUT, zero⟩

end Sys2Proof.Machine
end

section
/-! SUPPORT. The applications an evaluation makes: those of the ops that `EVAL` lists (spec/43_evaluator.md R145). -/

namespace Sys2Proof.Machine

variable {m t k : Block} {old s u v : State} {n : Nat}

/-- A lane map that is handed the old lane another way. -/
theorem mapLanes_of_old (s : State) (f : Fin 8 → Block → Block) :
    (s.mapLanes fun i _ => f i s.B[i]) = s.mapLanes f := rfl

/-- The second writing of the ops computes what the first does. -/
theorem execCounted_value (i : Instr) (s : State) : (execCounted i s).value = exec i s := by
  cases i with
  | wait | rtk | tkh | tkg | xork | aesr | aesrz | fork | mask | fin => rfl
  | bxork k => rw [exec_bxork, ← mapLanes_of_old]; rfl
  | baesr k => rw [exec_baesr, ← mapLanes_of_old]; rfl
  | baesrz => rw [exec_baesrz, ← mapLanes_of_old]; rfl

/-- R145: what an op applies, whatever the data. -/
def opCounts : Instr → Counts
  | .wait | .fork | .fin => Counts.none
  | .rtk _ => { rtkAssemble := 1 }
  | .tkh => { hPermTK1 := 1, hPermTK2 := 1 }
  | .tkg => { gBlock := 1 }
  | .xork _ => { keyXorS := 1 }
  | .aesr _ | .aesrz => { aesRoundS := 1 }
  | .bxork _ | .mask _ => { keyXorLanes := 8 }
  | .baesr _ | .baesrz => { aesRoundLanes := 8 }

theorem execCounted_counts (i : Instr) (s : State) : (execCounted i s).counts = opCounts i := by
  cases i <;> rfl

/-- The ROM's op is decoded from the ROM's word. -/
theorem romOp_eq_some_iff {a : Nat} {i : Instr} :
    romOp a = some i ↔ ∃ cw, Memory.read [] a = some cw ∧ decodeWord cw = .ok i := by
  rw [romOp]
  cases Memory.read [] a with
  | none => simp
  | some cw => cases word : decodeWord cw <;> simp [word]

/-- With the hardwired ROM a step makes the applications of the op at its address. -/
theorem stepCounts_of_romOp {i : Instr} (hardwired : s.rom = []) (low : s.ports.rst = false)
    (found : romOp s.step.toNat = some i) : stepCounts s = opCounts i := by
  obtain ⟨cw, read, word⟩ := romOp_eq_some_iff.mp found
  simp only [stepCounts, low, State.fetch, hardwired, read, word, execCounted_counts, Bool.false_eq_true, if_false]

/-- The applications of a list of ops. -/
def sumCounts (ops : List Instr) : Counts := ops.foldr (fun i c => (opCounts i).add c) Counts.none

/-- `EVAL` from address `a` on begins with the op there. -/
theorem evalOps_drop {a : Nat} {i : Instr} (found : romOp a = some i) : evalOps.drop a = i :: evalOps.drop (a + 1) := by
  obtain ⟨inside, rfl⟩ := List.getElem?_eq_some_iff.mp ((romOp_eq_evalOps a).symm.trans found)
  exact List.drop_eq_getElem_cons inside

/-- The remaining steps of an evaluation make the applications of the remaining ops of `EVAL`. -/
theorem RunningAt.runCounts {j : Nat} (run : RunningAt m t k old n v) (first : 1 ≤ n) (left : n + j = 68)
    (quiet : NoResetFor (j + 1) v) : Machine.runCounts (j + 1) v = sumCounts (evalOps.drop n) := by
  have low := quiet.ports_rst
  induction j generalizing n v with
  | zero =>
    obtain rfl : n = 68 := left
    have found : romOp 68 = some .fin := (romOp_eq_fin_iff 68).mpr rfl
    rw [runCounts_succ 0 (step_of_finish run.rom run.step low), stepCounts_of_romOp run.rom low (run.step.symm ▸ found),
      evalOps_drop found]
    rfl
  | succ j ih =>
    obtain ⟨i, found, -, -⟩ := exists_romOp_of_running first (show n ≤ 67 by omega)
    obtain ⟨u, answer, next, inputs⟩ := run.next first (by omega) low
    have quiet' := quiet.tail inputs
    rw [runCounts_succ _ answer, stepCounts_of_romOp run.rom low (run.step.symm ▸ found), evalOps_drop found,
      ih next (by omega) (by omega) quiet' quiet'.ports_rst]
    rfl

/-- Settles O55: the 69 steps run `EVAL` from its first op to its last. -/
theorem evaluationCounts : Obligations.EvaluationCounts := by
  refine ⟨execCounted_value, fun i s s' => (execCounted_counts i s).trans (execCounted_counts i s').symm,
    fun k s => ⟨execCounted_counts (.bxork k) s, execCounted_counts (.mask k) s⟩, fun s m t k accepts quiet => ?_⟩
  have found : romOp s.step.toNat = some .wait := accepts.idle ▸ (romOp_eq_wait_iff _).mpr rfl
  have running := (runningAt_acceptStart accepts).setInputs s.inputs.tail
  have rest : runCounts 68 s.acceptStart.consumeInput = sumCounts (evalOps.drop 1) :=
    running.runCounts (j := 67) le_rfl rfl (quiet.tail rfl)
  rw [runCounts_succ 68 (step_of_accept accepts.rom accepts.idle accepts.rst accepts.start), rest,
    stepCounts_of_romOp accepts.rom accepts.rst found]
  decide

end Sys2Proof.Machine
end

section
/-! SUPPORT. Blocks whose bytes are moved and Blocks whose bytes are mapped: the forms of `h_perm` and `shift_rows`, and
of `sub_bytes` and `g_block` (spec/40_aes_round.md R81, R83, spec/41_tweakey_schedule.md R103, R105). -/

namespace Sys2Proof

/-- Byte `j` is taken from position `σ j`. -/
def Block.gather (σ : Fin 16 → Fin 16) (X : Block) : Block := Vector.ofFn fun j => X[σ j]

/-- Each byte is mapped on its own. -/
def Block.mapBytes (f : Byte → Byte) (X : Block) : Block := Vector.ofFn fun j => f X[j]

theorem Block.ext_bytes {X Y : Block} (h : ∀ j : Fin 16, X[j] = Y[j]) : X = Y := Vector.ext fun j hj => h ⟨j, hj⟩

@[simp] theorem Block.getElem_gather (σ : Fin 16 → Fin 16) (X : Block) (j : Fin 16) :
    (Block.gather σ X)[j] = X[σ j] := by
  rw [Block.gather, Fin.getElem_fin, Vector.getElem_ofFn]

@[simp] theorem Block.getElem_mapBytes (f : Byte → Byte) (X : Block) (j : Fin 16) :
    (Block.mapBytes f X)[j] = f X[j] := by
  rw [Block.mapBytes, Fin.getElem_fin, Vector.getElem_ofFn, Fin.getElem_fin]

/-- Moving bytes again and again is moving them by the iterated source. -/
theorem Block.gather_iterate (σ : Fin 16 → Fin 16) (n : Nat) : (Block.gather σ)^[n] = Block.gather σ^[n] := by
  induction n with
  | zero => exact funext fun X => Block.ext_bytes fun j => (Block.getElem_gather id X j).symm
  | succ n ih =>
    refine funext fun X => Block.ext_bytes fun j => ?_
    rw [Function.iterate_succ_apply, ih, Block.getElem_gather, Block.getElem_gather, Block.getElem_gather]
    exact congrArg (fun i : Fin 16 => X[i]) (Function.iterate_succ_apply' σ n j).symm

/-- Moving bytes and mapping them commute. -/
theorem Block.mapBytes_gather (f : Byte → Byte) (σ : Fin 16 → Fin 16) (X : Block) :
    Block.mapBytes f (Block.gather σ X) = Block.gather σ (Block.mapBytes f X) :=
  Block.ext_bytes fun j => by simp only [Block.getElem_mapBytes, Block.getElem_gather]

/-- A bijection of the bytes is one of the Blocks. -/
theorem Block.mapBytes_bijective {f : Byte → Byte} (h : Function.Bijective f) :
    Function.Bijective (Block.mapBytes f) := by
  obtain ⟨g, left, right⟩ := Function.bijective_iff_has_inverse.mp h
  refine Function.bijective_iff_has_inverse.mpr ⟨Block.mapBytes g, fun X => ?left, fun X => ?right⟩
  case left => exact Block.ext_bytes fun j => by simp only [Block.getElem_mapBytes, left X[j]]
  case right => exact Block.ext_bytes fun j => by simp only [Block.getElem_mapBytes, right X[j]]

/-- A function whose power is the identity is a bijection. -/
theorem bijective_of_iterate_eq_id {α : Type} {f : α → α} (n : Nat) (h : f^[n + 1] = id) : Function.Bijective f :=
  Function.bijective_iff_has_inverse.mpr ⟨f^[n], fun x => (Function.iterate_succ_apply f n x).symm.trans (congrFun h x),
    fun x => (Function.iterate_succ_apply' f n x).symm.trans (congrFun h x)⟩

/-- Adding a Block is a bijection. -/
theorem Block.xor_right_bijective (K : Block) : Function.Bijective fun X => Block.xor X K :=
  Function.Involutive.bijective fun X => Block.xor_xor_cancel X K

/-- Adding to a Block is a bijection. -/
theorem Block.xor_left_bijective (X : Block) : Function.Bijective (Block.xor X) := by
  rw [funext (Block.xor_comm X)]
  exact Block.xor_right_bijective X

end Sys2Proof

namespace Sys2Proof.Machine

theorem hPerm_eq_gather : hPerm = Block.gather permInv := rfl

theorem shiftRows_eq_gather : shiftRows = Block.gather shiftRowsSource := rfl

theorem subBytes_eq_mapBytes : subBytes = Block.mapBytes sbox := rfl

theorem gBlock_eq_mapBytes : gBlock = Block.mapBytes gLfsr := rfl

end Sys2Proof.Machine
end

section
/-! SUPPORT. The field multipliers and the S-box (spec/40_aes_round.md R81, R82). -/

namespace Sys2Proof.Machine

/-- What R82 reduces by: the low byte of `0x11b`, when the bit that leaves the byte is set. -/
def xtimeReduction (top : Bool) : Byte := if top then 0x1b else 0

theorem xtimeReduction_xor (a b : Bool) :
    xtimeReduction (xor a b) = xtimeReduction a ^^^ xtimeReduction b := by
  revert a b; decide

theorem xtime_eq (a : Byte) : xtime a = a <<< 1 ^^^ xtimeReduction (a.getLsbD 7) := by
  rw [xtime, xtimeReduction]
  split
  case isTrue => rfl
  case isFalse => exact BitVec.xor_zero.symm

/-- R82: doubling is linear. -/
theorem xtime_xor (a b : Byte) : xtime (a ^^^ b) = xtime a ^^^ xtime b := by
  rw [xtime_eq, xtime_eq, xtime_eq, BitVec.shiftLeft_xor_distrib, BitVec.getLsbD_xor, xtimeReduction_xor]
  ac_rfl

/-- Without bits to go through the sum is empty. -/
theorem gfMulBits_zero (n : Nat) (b : Byte) : gfMulBits n 0 b = 0 := by
  induction n generalizing b with
  | zero => rfl
  | succ n ih => simpa [gfMulBits] using ih (xtime b)

/-- The sum goes through the low bit first. -/
theorem gfMulBits_one (n : Nat) (b : Byte) : gfMulBits (n + 1) 1 b = b := by
  have rest : (1 : Byte) >>> 1 = 0 := rfl
  rw [gfMulBits, rest, gfMulBits_zero]
  exact BitVec.xor_zero

theorem gfMul_one (a : Byte) : gfMul 1 a = a := gfMulBits_one 7 a

theorem gfMul_two (a : Byte) : gfMul 2 a = xtime a := by
  have rest : (2 : Byte) >>> 1 = 1 := rfl
  rw [gfMul, gfMulBits, rest, gfMulBits_one]
  exact BitVec.zero_xor

theorem gfMul_three (a : Byte) : gfMul 3 a = xtime a ^^^ a := by
  have rest : (3 : Byte) >>> 1 = 1 := rfl
  rw [gfMul, gfMulBits, rest, gfMulBits_one]
  exact BitVec.xor_comm a (xtime a)

/-- Settles O35: `xtime` by its top bit, and the multipliers by the bits they go through. -/
theorem gfMultipliers : Obligations.GfMultipliers := fun a =>
  ⟨fun top => if_pos top, fun top => if_neg (Bool.eq_false_iff.mp top), gfMul_one a, gfMul_two a, gfMul_three a⟩

/-- The inverse of R81's affine map. -/
def sboxAffineInverse (b : Byte) : Byte := rotl8 b 1 ^^^ rotl8 b 3 ^^^ rotl8 b 6 ^^^ 0x05

/-- The inverse in GF(2^8), as the S-box's table has it below the affine map. -/
def gfInverse (a : Byte) : Byte := sboxAffineInverse (sbox a)

theorem gfMul_gfInverse : ∀ a : Byte, a ≠ 0 → gfMul a (gfInverse a) = 1 := by decide

theorem sboxAffine_gfInverse : ∀ a : Byte, sboxAffine (gfInverse a) = sbox a := by decide

theorem gfInverse_involutive : ∀ a : Byte, gfInverse (gfInverse a) = a := by decide

/-- R81: the S-box is injective because the inverses are, and there are finitely many bytes. -/
theorem sbox_bijective : Function.Bijective sbox :=
  Finite.injective_iff_bijective.mp
    (Function.Injective.of_comp (f := sboxAffineInverse) (Function.Involutive.injective gfInverse_involutive))

theorem subBytes_bijective : Function.Bijective subBytes :=
  subBytes_eq_mapBytes ▸ Block.mapBytes_bijective sbox_bijective

/-- R81, byte by byte. -/
theorem getElem_subBytes (X : Block) (j : Fin 16) : (subBytes X)[j] = sbox X[j] := Block.getElem_mapBytes sbox X j

/-- Settles O34: the table against the inverses it is generated from. -/
theorem sboxIsTheGeneratedPermutation : Obligations.SboxIsTheGeneratedPermutation :=
  ⟨getElem_subBytes, ⟨gfInverse, by decide, gfMul_gfInverse, fun a => (sboxAffine_gfInverse a).symm⟩, sbox_bijective⟩

end Sys2Proof.Machine
end

section
/-! SUPPORT. `shift_rows` and `mix_columns`, byte by byte and column by column, and that each of them is a bijection
(spec/40_aes_round.md R83, R84). -/

namespace Sys2Proof

theorem Byte.xor_left_comm (a b c : Byte) : a ^^^ (b ^^^ c) = b ^^^ (a ^^^ c) := by ac_rfl

theorem Byte.xor_cancel_left (a b : Byte) : a ^^^ (a ^^^ b) = b := by
  rw [← BitVec.xor_assoc, BitVec.xor_self, BitVec.zero_xor]

end Sys2Proof

namespace Sys2Proof.Machine

/-! ## `shift_rows` -/

/-- R83, as a gather. -/
theorem getElem_shiftRows (X : Block) (j : Fin 16) : (shiftRows X)[j] = X[shiftRowsSource j] :=
  Block.getElem_gather shiftRowsSource X j

/-- R83: the source of row `r` is `r` columns further on. -/
theorem shiftRowsSource_column : ∀ c r : Fin 4,
    (shiftRowsSource ⟨4 * c.val + r.val, by omega⟩).val = 4 * ((c.val + r.val) % 4) + r.val := by decide

/-- R83's table `SR`. -/
theorem shiftRowsSource_eq : ∀ j : Fin 16,
    shiftRowsSource j = (#v[0, 5, 10, 15, 4, 9, 14, 3, 8, 13, 2, 7, 12, 1, 6, 11] : Vector (Fin 16) 16)[j] := by decide

/-- Settles O36: both forms of the rule are the source of the gather. -/
theorem shiftRowsRotatesRows : Obligations.ShiftRowsRotatesRows := by
  refine ⟨fun X c r => ?rotation, fun X j => ?table⟩
  case rotation =>
    have moved := getElem_shiftRows X ⟨4 * c.val + r.val, by omega⟩
    simpa only [Fin.getElem_fin, shiftRowsSource_column] using moved
  case table => exact (getElem_shiftRows X j).trans (getElem_congr_idx (shiftRowsSource_eq j))

/-- Four rotations of each row are the identity. -/
theorem shiftRowsSource_iterate : ∀ j, shiftRowsSource^[4] j = j := by decide

theorem shiftRows_bijective : Function.Bijective shiftRows := by
  refine bijective_of_iterate_eq_id 3 ?_
  rw [shiftRows_eq_gather, Block.gather_iterate, funext shiftRowsSource_iterate]
  exact funext fun X => Block.ext_bytes fun j => Block.getElem_gather _ X j

/-! ## `mix_columns` -/

/-- A line of R84, from the byte of its row and those of the rows after it: the sum of the column, the row's own byte,
and twice what it differs from the next. -/
def mixRow (a b c d : Byte) : Byte := a ^^^ b ^^^ c ^^^ d ^^^ a ^^^ xtime (a ^^^ b)

/-- The four lines of R84 are one line, rotated. -/
theorem mixColumn_eq (a b c d : Byte) :
    mixColumn a b c d = #v[mixRow a b c d, mixRow b c d a, mixRow c d a b, mixRow d a b c] := by
  simp only [mixColumn, mixRow, mul2, mul3, xtime_xor, BitVec.xor_assoc, BitVec.xor_comm, Byte.xor_left_comm,
    Byte.xor_cancel_left]

/-- R84: four equal bytes are kept. -/
theorem mixRow_self (a : Byte) : mixRow a a a a = a := by
  have zero : xtime 0#8 = 0#8 := rfl
  simp only [mixRow, BitVec.xor_self, BitVec.zero_xor, BitVec.xor_zero, zero]

/-- The lines keep the sum of a column. -/
theorem xor_mixRow (a b c d : Byte) :
    mixRow a b c d ^^^ mixRow b c d a ^^^ mixRow c d a b ^^^ mixRow d a b c = a ^^^ b ^^^ c ^^^ d := by
  simp only [mixRow, xtime_xor, BitVec.xor_assoc, BitVec.xor_comm, Byte.xor_left_comm, Byte.xor_cancel_left,
    BitVec.xor_self, BitVec.xor_zero]

/-- What a line differs from the next. -/
theorem mixRow_xor_mixRow (a b c d : Byte) : mixRow a b c d ^^^ mixRow b c d a = a ^^^ b ^^^ xtime (a ^^^ c) := by
  simp only [mixRow, xtime_xor, BitVec.xor_assoc, BitVec.xor_comm, Byte.xor_left_comm, Byte.xor_cancel_left]

/-- The lines applied twice add, to each byte, four times what it differs from the byte two rows on. -/
theorem mixRow_mixRow (a b c d : Byte) :
    mixRow (mixRow a b c d) (mixRow b c d a) (mixRow c d a b) (mixRow d a b c) = a ^^^ xtime (xtime (a ^^^ c)) := by
  rw [mixRow, xor_mixRow, mixRow_xor_mixRow, xtime_xor (a ^^^ b), mixRow]
  simp only [BitVec.xor_assoc, BitVec.xor_comm, Byte.xor_left_comm, Byte.xor_cancel_left]

/-- A Block is its four columns of four rows (R60). -/
theorem eq_of_byteAt_eq {X Y : Block} (h : ∀ c r, byteAt X c r = byteAt Y c r) : X = Y := by
  refine Vector.ext fun j hj => ?_
  have byte := h ⟨j / 4, by omega⟩ ⟨j % 4, by omega⟩
  simpa only [byteAt, Nat.div_add_mod] using byte

/-- R84 byte by byte. -/
theorem byteAt_mixColumns (X : Block) (c r : Fin 4) :
    byteAt (mixColumns X) c r = (mixColumn (byteAt X c 0) (byteAt X c 1) (byteAt X c 2) (byteAt X c 3))[r] := by
  have hc : Fin.ofNat 4 ((4 * c.val + r.val) / 4) = c := by
    rw [Fin.ext_iff, Fin.val_ofNat]
    omega
  have hr : Fin.ofNat 4 (4 * c.val + r.val) = r := by
    rw [Fin.ext_iff, Fin.val_ofNat]
    omega
  rw [byteAt, mixColumns, Vector.getElem_ofFn]
  simp only [hc, hr]

/-- R84 as one line for every row. -/
theorem byteAt_mixColumns_eq_mixRow (X : Block) (c r : Fin 4) : byteAt (mixColumns X) c r =
    mixRow (byteAt X c r) (byteAt X c (r + 1)) (byteAt X c (r + 2)) (byteAt X c (r + 3)) := by
  rw [byteAt_mixColumns, mixColumn_eq]
  revert r
  simp only [Fin.forall_fin_succ]
  exact ⟨rfl, rfl, rfl, rfl, nofun⟩

/-- `mix_columns` twice adds, to each byte, four times what it differs from the byte two rows on. -/
theorem byteAt_mixColumns_mixColumns (X : Block) (c r : Fin 4) : byteAt (mixColumns (mixColumns X)) c r =
    byteAt X c r ^^^ xtime (xtime (byteAt X c r ^^^ byteAt X c (r + 2))) := by
  rw [← mixRow_mixRow _ (byteAt X c (r + 1)) _ (byteAt X c (r + 3))]
  simp only [byteAt_mixColumns_eq_mixRow, add_assoc, Fin.reduceAdd, add_zero]

/-- Adding a multiple of the difference to both bytes keeps the difference, so doing it twice undoes it. -/
theorem xor_xtime_xtime_twice (a b : Byte) : a ^^^ xtime (xtime (a ^^^ b)) ^^^
    xtime (xtime (a ^^^ xtime (xtime (a ^^^ b)) ^^^ (b ^^^ xtime (xtime (b ^^^ a))))) = a := by
  rw [BitVec.xor_comm b a]
  generalize shared : xtime (xtime (a ^^^ b)) = e
  have kept : a ^^^ e ^^^ (b ^^^ e) = a ^^^ b := by
    rw [BitVec.xor_comm b e, BitVec.xor_assoc, Byte.xor_cancel_left]
  rw [kept, shared, BitVec.xor_assoc, BitVec.xor_self, BitVec.xor_zero]

/-- Four times `mix_columns` is the identity. -/
theorem mixColumns_bijective : Function.Bijective mixColumns := by
  refine bijective_of_iterate_eq_id 3 (funext fun X => eq_of_byteAt_eq fun c r => ?_)
  have opposite : r + 2 + 2 = r := by revert r; decide
  change byteAt (mixColumns (mixColumns (mixColumns (mixColumns X)))) c r = byteAt X c r
  simp only [byteAt_mixColumns_mixColumns, opposite, xor_xtime_xtime_twice]

/-- Settles O37: the four lines with the multipliers of GF(2^8), and the fixed columns. -/
theorem mixColumnsByColumn : Obligations.MixColumnsByColumn := by
  intro X c
  simp only [gfMul_two, gfMul_three]
  refine ⟨byteAt_mixColumns X c 0, byteAt_mixColumns X c 1, byteAt_mixColumns X c 2, byteAt_mixColumns X c 3,
    fun equal r => ?fixed⟩
  case fixed =>
    have row : ∀ q, byteAt X c q = X[4 * c.val] := equal
    have kept := byteAt_mixColumns_eq_mixRow X c r
    rw [row, row, row, row, mixRow_self] at kept
    exact kept.trans (equal r).symm

end Sys2Proof.Machine
end

section
/-! SUPPORT. The AES round from its layers (spec/40_aes_round.md R85 to R89). -/

namespace Sys2Proof.Machine

/-- R88: with the key `ZERO` the round is the three layers alone. -/
theorem aesRound_zero (X : Block) : aesRound X Block.zero = mixColumns (shiftRows (subBytes X)) := addRoundKey_zero _

/-- R83, R81: mapping bytes and moving them commute. -/
theorem subBytes_shiftRows (X : Block) : subBytes (shiftRows X) = shiftRows (subBytes X) := by
  rw [subBytes_eq_mapBytes, shiftRows_eq_gather, Block.mapBytes_gather]

/-- Settles O38: the round is its layers by definition; the layers by their own lemmas. -/
theorem aesRoundComposesItsLayers : Obligations.AesRoundComposesItsLayers :=
  ⟨fun X K j => ⟨getElem_addRoundKey X K j.val j.isLt, getElem_addRoundKey _ K j.val j.isLt⟩,
    subBytes_shiftRows, aesRound_zero⟩

/-- R89 in the state: the key addition and each layer are bijections. -/
theorem aesRound_bijective (K : Block) : Function.Bijective fun X => aesRound X K :=
  (Block.xor_right_bijective K).comp (mixColumns_bijective.comp
    (shiftRows_bijective.comp subBytes_bijective))

theorem getElem_replicate_byte (b : Byte) (j : Fin 16) : (Vector.replicate 16 b)[j] = b := by
  rw [Fin.getElem_fin, Vector.getElem_replicate]

/-- A round without a key maps sixteen equal bytes by the S-box alone: the two layers behind it keep them. -/
theorem aesRound_replicate (b : Byte) :
    aesRound (Vector.replicate 16 b) Block.zero = Vector.replicate 16 (sbox b) := by
  have bytes : subBytes (Vector.replicate 16 b) = Vector.replicate 16 (sbox b) := Block.ext_bytes fun j => by
    rw [getElem_subBytes, getElem_replicate_byte, getElem_replicate_byte]
  have rows : shiftRows (Vector.replicate 16 (sbox b)) = Vector.replicate 16 (sbox b) := Block.ext_bytes fun j => by
    rw [getElem_shiftRows, getElem_replicate_byte, getElem_replicate_byte]
  have columns : mixColumns (Vector.replicate 16 (sbox b)) = Vector.replicate 16 (sbox b) :=
    eq_of_byteAt_eq fun c r => by
      rw [byteAt_mixColumns_eq_mixRow]
      simp only [byteAt, Vector.getElem_replicate, mixRow_self]
  rw [aesRound_zero, bytes, rows, columns]

/-- Settles O39, from the bijective layers, the key addition and the round on equal bytes. -/
theorem aesRoundIsBijective : Obligations.AesRoundIsBijective := by
  refine ⟨aesRound_bijective, fun X => Block.xor_left_bijective _, fun X K K' => Block.xor_xor_xor_cancel_left _ K K',
    fun j => ?zeros, fun j => ?ones⟩
  case zeros => exact (congrArg (·[j]) (aesRound_replicate 0)).trans (getElem_replicate_byte 0x63 j)
  case ones => exact (congrArg (·[j]) (aesRound_replicate 0xff)).trans (getElem_replicate_byte 0x16 j)

/-! ## Trunk and branches -/

/-- Steps that are bijections of the state make up a bijection of it. -/
theorem foldl_bijective {α ι : Type} {f : α → ι → α} (step : ∀ i, Function.Bijective fun x => f x i) (is : List ι) :
    Function.Bijective fun x => is.foldl f x := by
  induction is with
  | nil => exact Function.bijective_id
  | cons i is ih => exact ih.comp (step i)

theorem trunkRounds_bijective (rtk : Vector Block 16) (j : Nat) :
    Function.Bijective fun message => trunkRounds message rtk j :=
  (foldl_bijective (fun _ => aesRound_bijective _) _).comp (Block.xor_right_bijective _)

theorem branchRounds_bijective (rtk : Vector Block 16) (i : Fin 8) (j : Nat) :
    Function.Bijective fun fork => branchRounds fork rtk i j :=
  (foldl_bijective (fun _ => aesRound_bijective _) _).comp (Block.xor_right_bijective _)

/-- Settles O45: whitening, rounds and closing round are bijections of the state. -/
theorem trunkAndBranchesAreBijective : Obligations.TrunkAndBranchesAreBijective := fun _ _ =>
  ⟨(aesRound_bijective Block.zero).comp (trunkRounds_bijective _ 6),
    fun i => (aesRound_bijective Block.zero).comp (branchRounds_bijective _ i 7)⟩

end Sys2Proof.Machine
end

section
/-! SUPPORT. The tweakey schedule in closed form, from the powers of `PERM` and the bits of `g_lfsr`
(spec/41_tweakey_schedule.md R102 to R108). -/

namespace Sys2Proof.Machine

/-! ## `rtk_assemble` -/

/-- R102, column by column. -/
theorem getElem_rtkAssemble (T1 T2 : Block) (r : Fin 16) (j : Nat) (h : j < 16) : (rtkAssemble T1 T2 r)[j] =
    if j < 4 then T1[j] ^^^ T2[j] ^^^ c0[Fin.ofNat 4 j] else if j < 8 then T1[j] ^^^ T2[j] ^^^ rcon r
    else T1[j] ^^^ T2[j] := by
  rw [rtkAssemble, Vector.getElem_ofFn]
  rfl

/-- R62. -/
theorem rcon_eq : ∀ r : Fin 16, rcon r = (#v[0x2f, 0x5e, 0xbc, 0x63, 0xc6, 0x97, 0x35, 0x6a, 0xd4, 0xb3, 0x7d, 0xfa,
    0xef, 0xc5, 0x91, 0x39] : Vector Byte 16)[r] := by decide

theorem roundConstantBlock_zero :
    roundConstantBlock 0 = #v[0x01, 0x02, 0x04, 0x08, 0x2f, 0x2f, 0x2f, 0x2f, 0, 0, 0, 0, 0, 0, 0, 0] := by decide

/-- Settles O40: the four lines by their columns, and round 0 assembles the tweak and the key themselves. -/
theorem rtkAssembleByColumn : Obligations.RtkAssembleByColumn := by
  refine ⟨rfl, rcon_eq, fun T1 T2 r => ⟨fun row => ⟨?column0, ?column1, ?column2, ?column3⟩,
    rtkAssemble_eq_xor T1 T2 r⟩, fun tweak key => ?first⟩
  case column0 =>
    rw [getElem_rtkAssemble, if_pos row.isLt]
    exact congrArg _ (getElem_congr_idx (Fin.ofNat_val_eq_self row))
  case column1 => rw [getElem_rtkAssemble, if_neg (by omega), if_pos (by omega)]
  case column2 | column3 => rw [getElem_rtkAssemble, if_neg (by omega), if_neg (by omega)]
  case first =>
    rw [← roundConstantBlock_zero, ← rtkAssemble_eq_xor]
    exact getElem_schedule tweak key 0

/-! ## `h_perm` and `g_lfsr` -/

theorem permInv_iterate_four : ∀ j : Fin 16, (permInv^[4] j).val = (j.val + 8) % 16 := by decide

theorem permInv_iterate_eight : ∀ j : Fin 16, permInv^[8] j = j := by decide

/-- R103: a power of `h_perm` takes each byte from the same power of `PERMINV`. -/
theorem getElem_hPerm_iterate (n : Nat) (T : Block) (j : Fin 16) : (hPerm^[n] T)[j] = T[permInv^[n] j] := by
  rw [hPerm_eq_gather, Block.gather_iterate, Block.getElem_gather]

/-- R103: `h_perm` has period eight. -/
theorem hPerm_iterate_eight (T : Block) : hPerm^[8] T = T := Block.ext_bytes fun j =>
  (getElem_hPerm_iterate 8 T j).trans (getElem_congr_idx (permInv_iterate_eight j))

/-- R103: four times `h_perm` swaps the halves. -/
theorem getElem_hPerm_iterate_four (T : Block) (j : Fin 16) : (hPerm^[4] T)[j] = T[(j.val + 8) % 16] := by
  rw [getElem_hPerm_iterate, Fin.getElem_fin]
  exact getElem_congr_idx (permInv_iterate_four j)

/-- Settles O41, from the tables of R63 and the powers of the source table. -/
theorem hPermScattersBytes : Obligations.HPermScattersBytes := by
  refine ⟨by decide, fun T i => ⟨getElem_hPerm_perm T i, getElem_hPerm T i⟩,
    Finite.injective_iff_bijective.mp (Function.LeftInverse.injective permInv_perm), permInv_perm, hPerm_iterate_eight,
    fun T j => ⟨?low, ?high⟩⟩
  case low =>
    have opposite : (j.val + 8) % 16 = 8 + j.val := by omega
    exact (getElem_hPerm_iterate_four T ⟨j.val, by omega⟩).trans (getElem_congr_idx opposite)
  case high =>
    have opposite : (8 + j.val + 8) % 16 = j.val := by omega
    exact (getElem_hPerm_iterate_four T ⟨8 + j.val, by omega⟩).trans (getElem_congr_idx opposite)

/-- R104: the bits 6..0 move up. -/
theorem getLsbD_gLfsr_succ (b : Byte) (i : Nat) (h : i < 7) : (gLfsr b).getLsbD (i + 1) = b.getLsbD i := by
  interval_cases i <;> simp [gLfsr]

/-- R104: the feedback bit. -/
theorem getLsbD_gLfsr_zero (b : Byte) : (gLfsr b).getLsbD 0 = xor (b.getLsbD 5) (b.getLsbD 7) := by simp [gLfsr]

/-- R104: linear, since each bit of the result is a sum of bits. -/
theorem gLfsr_xor (a b : Byte) : gLfsr (a ^^^ b) = gLfsr a ^^^ gLfsr b := by
  refine BitVec.eq_of_getLsbD_eq fun i hi => ?_
  rw [BitVec.getLsbD_xor]
  cases i with
  | zero =>
    simp only [getLsbD_gLfsr_zero, BitVec.getLsbD_xor, Bool.xor_assoc]
    rw [Bool.xor_left_comm (b.getLsbD 5)]
  | succ i =>
    have inside : i < 7 := by omega
    simp only [getLsbD_gLfsr_succ _ i inside, BitVec.getLsbD_xor]

/-- R104: the only fixed point. -/
theorem gLfsr_eq_self_iff : ∀ b : Byte, gLfsr b = b ↔ b = 0 := by decide

/-- R104: the result's upper bits tell bits 6..0, and its feedback bit then tells bit 7. -/
theorem gLfsr_injective : Function.Injective gLfsr := by
  intro a b same
  have low : ∀ i < 7, a.getLsbD i = b.getLsbD i := fun i h => by
    rw [← getLsbD_gLfsr_succ a i h, ← getLsbD_gLfsr_succ b i h, same]
  have feedback : xor (a.getLsbD 5) (a.getLsbD 7) = xor (b.getLsbD 5) (b.getLsbD 7) := by
    rw [← getLsbD_gLfsr_zero, ← getLsbD_gLfsr_zero, same]
  have top : a.getLsbD 7 = b.getLsbD 7 := by rwa [low 5 (by decide), Bool.xor_right_inj] at feedback
  refine BitVec.eq_of_getLsbD_eq fun i hi => ?_
  rcases Nat.lt_succ_iff_lt_or_eq.mp hi with below | rfl
  · exact low i below
  · exact top

/-- Settles O42, from the bit form. -/
theorem gLfsrBits : Obligations.GLfsrBits :=
  ⟨fun b => ⟨getLsbD_gLfsr_zero b, getLsbD_gLfsr_succ b, gLfsr_eq_self_iff b⟩, gLfsr_xor,
    Finite.injective_iff_bijective.mp gLfsr_injective, rfl, rfl, rfl, rfl, rfl, rfl⟩

/-! ## The schedule -/

/-- R106: moving the bytes of a half and stepping them commute. -/
theorem gBlock_hPerm (T : Block) : gBlock (hPerm T) = hPerm (gBlock T) := by
  rw [gBlock_eq_mapBytes, hPerm_eq_gather, Block.mapBytes_gather]

/-- R106, R107: the halves after `r` rounds are powers. -/
theorem tweakeyHalves_eq (tweak key : Block) (r : Nat) :
    tweakeyHalves tweak key r = (gBlock^[r] (hPerm^[r] tweak), hPerm^[r] key) := by
  induction r with
  | zero => rfl
  | succ r ih =>
    have commute : Function.Commute hPerm gBlock^[r] :=
      Function.Commute.iterate_right (fun T => (gBlock_hPerm T).symm) r
    rw [tweakeyHalves, ih, Function.iterate_succ_apply' gBlock, Function.iterate_succ_apply' hPerm,
      Function.iterate_succ_apply' hPerm, ← commute (hPerm^[r] tweak)]

/-- R107 in closed form. -/
theorem getElem_schedule_eq (tweak key : Block) (r : Fin 16) : (schedule tweak key)[r] =
    Block.xor (Block.xor (gBlock^[r.val] (hPerm^[r.val] tweak)) (hPerm^[r.val] key)) (roundConstantBlock r) := by
  rw [getElem_schedule, roundTweakey, tweakeyHalves_eq, rtkAssemble_eq_xor]

/-- Two keys move a round tweakey by what their powers of `h_perm` differ by. -/
theorem schedule_xor_schedule (tweak key key' : Block) (r : Fin 16) :
    Block.xor (schedule tweak key)[r] (schedule tweak key')[r] =
      Block.xor (hPerm^[r.val] key) (hPerm^[r.val] key') := by
  rw [getElem_schedule_eq, getElem_schedule_eq, Block.xor_comm _ (roundConstantBlock r),
    Block.xor_comm _ (roundConstantBlock r), Block.xor_xor_xor_cancel_left, Block.xor_xor_xor_cancel_left]

/-- Settles O43: the closed form, and the period of `h_perm` on the key's half. -/
theorem scheduleClosedForm : Obligations.ScheduleClosedForm := by
  refine ⟨gBlock_hPerm, getElem_schedule_eq, fun tweak key key' r => ?period⟩
  case period =>
    have later := schedule_xor_schedule tweak key key' ⟨8 + r.val, by omega⟩
    have earlier := schedule_xor_schedule tweak key key' ⟨r.val, by omega⟩
    rw [Function.iterate_add_apply, Function.iterate_add_apply, hPerm_iterate_eight, hPerm_iterate_eight] at later
    exact later.trans earlier.symm

end Sys2Proof.Machine
end

section
/-! SUPPORT. The branch keys of the lanes (spec/42_branch_key.md R120 to R124). -/

namespace Sys2Proof.Machine

/-- R121: the constants are 1..8. -/
theorem toNat_branchConstant : ∀ i : Fin 8, (branchConstant i).toNat = i.val + 1 := by decide

theorem branchConstantBlock_zero : branchConstantBlock 0 = Block.zero := by decide

theorem branchKey_zero (K : Block) : branchKey K 0 = K := by
  rw [branchKey_eq_xor, branchConstantBlock_zero, Block.xor_zero]

/-- R124: a branch key tells its constant. -/
theorem branchKey_injective (K : Block) : Function.Injective (branchKey K) := by
  intro c d same
  have byte : (branchKey K c)[8] = (branchKey K d)[8] := by rw [same]
  rwa [getElem_branchKey, getElem_branchKey, if_pos (by decide), if_pos (by decide), BitVec.xor_right_inj] at byte

/-- Settles O44: `branch_key` adds a constant Block that is another for every lane and never `ZERO`. -/
theorem branchKeysDifferByLane : Obligations.BranchKeysDifferByLane := by
  refine ⟨fun K c => ⟨fun row => ?column2, fun j outside => ?others, branchKey_eq_xor K c, ?twice, branchKey_zero K⟩,
    toNat_branchConstant, fun K i j => ⟨xor_branchKey_branchKey K _ _, fun differ same => differ ?lanes,
    fun same => ?unmodified⟩, fun K1 K2 c => ?linear⟩
  case column2 => rw [getElem_branchKey, if_pos (by omega)]
  case others => rw [Fin.getElem_fin, getElem_branchKey, if_neg (by omega), Fin.getElem_fin]
  case twice => rw [branchKey_eq_xor, branchKey_eq_xor, Block.xor_xor_cancel]
  case lanes =>
    have constants := congrArg BitVec.toNat (branchKey_injective K same)
    rw [toNat_branchConstant, toNat_branchConstant] at constants
    exact Fin.ext (Nat.succ.inj constants)
  case unmodified =>
    have constants := congrArg BitVec.toNat (branchKey_injective K (same.trans (branchKey_zero K).symm))
    rw [toNat_branchConstant] at constants
    exact Nat.succ_ne_zero i.val constants
  case linear => rw [branchKey_eq_xor, branchKey_eq_xor, Block.xor_assoc, Block.xor_comm K2, ← Block.xor_assoc]

end Sys2Proof.Machine
end
